-- ==== Sys2Proof/Word.lean ====
section
/-! DEFINITION. The word types of BB64: bitboards, command words, register numbers. -/

namespace Sys2Proof

/-- A bitboard: 64 bits, bit `i` is square `i` (R9, R20). -/
abbrev Word := BitVec 64

/-- A command word: 32 bits (R60). -/
abbrev CmdWord := BitVec 32

/-- A bitboard register number, `b0` to `b15` (R20). -/
abbrev Reg := Fin 16

end Sys2Proof
end

