-- ==== Sys2Proof/Syntax.lean ====
section
/-! DEFINITION. The syntax: the eight directions and the 42 instructions of `spec/opcode_table.json`, one constructor
per row. Immediates are natural numbers (R62: unsigned, zero-extended); `Instr.wf` says which fit their field. -/

namespace Sys2Proof

/-- The eight directions, in the order of their codes, clockwise from north (R63). -/
inductive Dir where
  | n | ne | e | se | s | sw | w | nw
  deriving DecidableEq, Repr

/-- The 42 instructions (R64). -/
inductive Instr where
  /-- AND, R101. -/
  | and (rd rs1 rs2 : Reg)
  /-- OR, R102. -/
  | or (rd rs1 rs2 : Reg)
  /-- XOR, R103. -/
  | xor (rd rs1 rs2 : Reg)
  /-- NOT, R104. -/
  | not (rd rs1 : Reg)
  /-- SHL, R105. -/
  | shl (rd rs1 : Reg) (amount : Nat)
  /-- SHR, R106. -/
  | shr (rd rs1 : Reg) (amount : Nat)
  /-- SQ, R107. -/
  | sq (rd : Reg) (square : Nat)
  /-- SQR, R108. -/
  | sqr (rd rs1 : Reg)
  /-- FILE, R109. -/
  | file (rd : Reg) (index : Nat)
  /-- RANK, R110. -/
  | rank (rd : Reg) (index : Nat)
  /-- EFILES, R111. -/
  | efiles (rd : Reg) (count : Nat)
  /-- WFILES, R112. -/
  | wfiles (rd : Reg) (count : Nat)
  /-- ISEMPTY, R113. -/
  | isempty (rd rs1 : Reg)
  /-- CONTAINS, R114: `rs1` the set, `rs2` the square index. -/
  | contains (rd rs1 rs2 : Reg)
  /-- CONTAINSI, R115. -/
  | containsi (rd rs1 : Reg) (square : Nat)
  /-- SH.N, R131. -/
  | shN (rd rs1 : Reg) (amount : Nat)
  /-- SH.NE, R135. -/
  | shNE (rd rs1 : Reg)
  /-- SH.E, R133. -/
  | shE (rd rs1 : Reg) (amount : Nat)
  /-- SH.SE, R137. -/
  | shSE (rd rs1 : Reg)
  /-- SH.S, R132. -/
  | shS (rd rs1 : Reg) (amount : Nat)
  /-- SH.SW, R138. -/
  | shSW (rd rs1 : Reg)
  /-- SH.W, R134. -/
  | shW (rd rs1 : Reg) (amount : Nat)
  /-- SH.NW, R136. -/
  | shNW (rd rs1 : Reg)
  /-- FILL.N, R154: `rs1` the source, `rs2` the empty mask, as in every FILL and ATK. -/
  | fillN (rd rs1 rs2 : Reg)
  /-- FILL.NE, R155. -/
  | fillNE (rd rs1 rs2 : Reg)
  /-- FILL.E, R156. -/
  | fillE (rd rs1 rs2 : Reg)
  /-- FILL.SE, R157. -/
  | fillSE (rd rs1 rs2 : Reg)
  /-- FILL.S, R158. -/
  | fillS (rd rs1 rs2 : Reg)
  /-- FILL.SW, R159. -/
  | fillSW (rd rs1 rs2 : Reg)
  /-- FILL.W, R160. -/
  | fillW (rd rs1 rs2 : Reg)
  /-- FILL.NW, R161. -/
  | fillNW (rd rs1 rs2 : Reg)
  /-- ATK.N, R163. -/
  | atkN (rd rs1 rs2 : Reg)
  /-- ATK.NE, R164. -/
  | atkNE (rd rs1 rs2 : Reg)
  /-- ATK.E, R165. -/
  | atkE (rd rs1 rs2 : Reg)
  /-- ATK.SE, R166. -/
  | atkSE (rd rs1 rs2 : Reg)
  /-- ATK.S, R167. -/
  | atkS (rd rs1 rs2 : Reg)
  /-- ATK.SW, R168. -/
  | atkSW (rd rs1 rs2 : Reg)
  /-- ATK.W, R169. -/
  | atkW (rd rs1 rs2 : Reg)
  /-- ATK.NW, R170. -/
  | atkNW (rd rs1 rs2 : Reg)
  /-- POPCNT, R180. -/
  | popcnt (rd rs1 : Reg)
  /-- LSB, R181. -/
  | lsb (rd rs1 : Reg)
  /-- CLRLSB, R182. -/
  | clrlsb (rd rs1 : Reg)
  deriving DecidableEq, Repr

end Sys2Proof
end

