-- ==== Sys2Proof/Machine/Board.lean ====
section
/-! DEFINITION. The board and the datapath's functions on 64-bit values: geometry (R9 to R12), shifts (R8, R130),
multi-file masks (R111, R112), the fill and attack functions (R150, R151, R162), popcount and lowest bit (R180 to R182).
Nothing here reads the machine's state. -/

namespace Sys2Proof.Machine

/-- `file(s) = s mod 8` (R9). -/
def fileOf (s : Nat) : Nat := s % 8

/-- `rank(s) = s div 8` (R9). -/
def rankOf (s : Nat) : Nat := s / 8

/-- `s = rank*8 + file` (R9). -/
def squareAt (file rank : Nat) : Nat := rank * 8 + file

/-- The index of the square a file letter A..H and a rank digit 1..8 name (R10). -/
def squareNamed (letter digit : Char) : Option Nat :=
  match ['A', 'B', 'C', 'D', 'E', 'F', 'G', 'H'].idxOf? letter, ['1', '2', '3', '4', '5', '6', '7', '8'].idxOf? digit with
  | some f, some r => some (squareAt f r)
  | _, _ => none

/-- The direction code in OP[2:0] of SH, FILL and ATK (R63). -/
def dirCode : Dir → Nat
  | .n => 0
  | .ne => 1
  | .e => 2
  | .se => 3
  | .s => 4
  | .sw => 5
  | .w => 6
  | .nw => 7

/-- How a step changes the file (R11). -/
def dirFile : Dir → Int
  | .n => 0
  | .ne => 1
  | .e => 1
  | .se => 1
  | .s => 0
  | .sw => -1
  | .w => -1
  | .nw => -1

/-- How a step changes the rank (R11). -/
def dirRank : Dir → Int
  | .n => 1
  | .ne => 1
  | .e => 0
  | .se => -1
  | .s => -1
  | .sw => -1
  | .w => 0
  | .nw => 1

/-- The index offset of one step, `δ_d` (R11, R150): N +8, NE +9, E +1, SE -7, S -8, SW -9, W -1, NW +7. -/
def dirOffset : Dir → Int
  | .n => 8
  | .ne => 9
  | .e => 1
  | .se => -7
  | .s => -8
  | .sw => -9
  | .w => -1
  | .nw => 7

/-- The square one step away, or none where the step leaves the board (R11). -/
def neighbour (d : Dir) (s : Nat) : Option Nat :=
  let f := (fileOf s : Int) + dirFile d
  let r := (rankOf s : Int) + dirRank d
  if 0 ≤ f ∧ f < 8 ∧ 0 ≤ r ∧ r < 8 then some (squareAt f.toNat r.toNat) else none

/-- The square `k` single steps away, or none where one of them leaves the board (R11, R152). -/
def ray (d : Dir) (s : Nat) : Nat → Option Nat
  | 0 => some s
  | k + 1 => (ray d s k).bind (neighbour d)

/-- `shl(v, n)`: logical left shift, 0 from `n = 64` on (R8). -/
def shl (v : Word) (n : Nat) : Word := v <<< n

/-- `shr(v, n)`: logical right shift, 0 from `n = 64` on (R8). -/
def shr (v : Word) (n : Nat) : Word := v >>> n

/-- `rsh(v, k)`: left by `k`, or right by `-k` where `k` is negative (R150). -/
def rsh (v : Word) (k : Int) : Word :=
  if 0 ≤ k then shl v k.toNat else shr v (-k).toNat

/-- EMPTY (R12). -/
def emptyBoard : Word := 0x0000000000000000

/-- FULL (R12). -/
def fullBoard : Word := 0xFFFFFFFFFFFFFFFF

/-- FILE_f (R12, R109). -/
def fileMask (f : Nat) : Word := shl 0x0101010101010101 f

/-- RANK_r (R12, R110). -/
def rankMask (r : Nat) : Word := shl 0x00000000000000FF (8 * r)

/-- NOT_A (R12). -/
def notA : Word := 0xFEFEFEFEFEFEFEFE

/-- NOT_H (R12). -/
def notH : Word := 0x7F7F7F7F7F7F7F7F

/-- The single-square set (R107). -/
def squareMask (s : Nat) : Word := shl 1 s

/-- The union of file masks (R111). -/
def unionFiles (fs : List Nat) : Word := fs.foldr (fun f acc => fileMask f ||| acc) emptyBoard

/-- WEST_FILES(n): files `0 .. n-1` (R12, R112). -/
def westFiles (n : Nat) : Word := unionFiles (List.range n)

/-- EAST_FILES(n): files `8-n .. 7`, for `n ≤ 8` (R12, R111). -/
def eastFiles (n : Nat) : Word := unionFiles ((List.range n).map (· + (8 - n)))

/-- The 64-bit value 1 for true and 0 for false (R25, R113). -/
def truthWord (p : Bool) : Word := if p then 1 else 0

/-- `shr(v, s) & 1`: is square `s` a member (R114, R115). -/
def memberBit (v : Word) (s : Nat) : Word := shr v s &&& 1

/-- SH.N by `n` ranks (R131). -/
def shiftNorth (v : Word) (n : Nat) : Word := shl v (8 * n)

/-- SH.S by `n` ranks (R132). -/
def shiftSouth (v : Word) (n : Nat) : Word := shr v (8 * n)

/-- SH.E by `n` files: the entering files, the `n` westernmost, are cleared (R133, C2). -/
def shiftEast (v : Word) (n : Nat) : Word := shl v n &&& ~~~(westFiles n)

/-- SH.W by `n` files: the entering files, the `n` easternmost, are cleared (R134, C2). -/
def shiftWest (v : Word) (n : Nat) : Word := shr v n &&& ~~~(eastFiles n)

/-- The single-step functions `step_d` (R130, R135 to R138). -/
def stepDir : Dir → Word → Word
  | .n, v => shl v 8
  | .ne, v => shl v 9 &&& notA
  | .e, v => shl v 1 &&& notA
  | .se, v => shr v 7 &&& notA
  | .s, v => shr v 8
  | .sw, v => shr v 9 &&& notH
  | .w, v => shr v 1 &&& notH
  | .nw, v => shl v 7 &&& notH

/-- The propagator pre-mask `m_d` of the fill, for E and W too (R150, C3). -/
def preMask : Dir → Word
  | .n => fullBoard
  | .ne => notA
  | .e => notA
  | .se => notA
  | .s => fullBoard
  | .sw => notH
  | .w => notH
  | .nw => notH

/-- One line `g <- g | (p & rsh(g, k))` of the fill (R151). -/
def fillGrow (k : Int) (g p : Word) : Word := g ||| (p &&& rsh g k)

/-- One line `p <- p & rsh(p, k)` of the fill (R151); symmetric for the south fills (C4). -/
def fillNarrow (k : Int) (p : Word) : Word := p &&& rsh p k

/-- `fill_d(s, e)`: the three Kogge-Stone rounds with hops 1, 2 and 4 (R151, C9). The blocker is not in it (C1). -/
def fill (d : Dir) (s e : Word) : Word :=
  let k := dirOffset d
  let p0 := e &&& preMask d
  let g1 := fillGrow k s p0
  let p1 := fillNarrow k p0
  let g2 := fillGrow (2 * k) g1 p1
  let p2 := fillNarrow (2 * k) p1
  fillGrow (4 * k) g2 p2

/-- `atk_d(s, e)`: one more single step (R162, C8). -/
def attack (d : Dir) (s e : Word) : Word := stepDir d (fill d s e)

/-- `popcount(v)` (R8, R180). -/
def popcount (v : Word) : Nat := (List.range 64).countP (fun i => v.getLsbD i)

/-- The index of the lowest set bit, 64 for the empty set (R181). -/
def lowestBit (v : Word) : Nat := ((List.range 64).find? (fun i => v.getLsbD i)).getD 64

/-- `v & (v - 1)`, 0 for the empty set (R182). -/
def clearLowest (v : Word) : Word := if v = 0 then 0 else v &&& (v - 1)

end Sys2Proof.Machine
end

