-- ==== Sys2Proof/Config.lean ====
section
/-! DEFINITION. What the spec leaves to the platform (R6) and the model's free values. -/

namespace Sys2Proof

/-- The order in which a narrower host bus carries the bytes of a 64-bit word (R44, parameter `HOST_BYTE_ORDER`).
`big` is the model's name for the other order: DESIGN CHOICE, log 9. -/
inductive ByteOrder where
  | little
  | big
  deriving DecidableEq, Repr

namespace Config

/-- The default of `HOST_BYTE_ORDER` (R6, R44). -/
def hostByteOrder : ByteOrder := .little

/-- Free values: what a bitboard register holds after a `Reset` transaction, which R230 and R231 leave unspecified.
No body: nothing can be proved of a value of it. Applied to `State.freeCount` (log 5). -/
opaque freeBoard (k : Nat) : Word

end Config

end Sys2Proof
end

