-- ==== Sys2Proof/Machine/State.lean ====
section
/-! DEFINITION. The machine's state as plain data: the unit's registers (R33), the model fault of R22, the program
position (R24), and the host's side of the port (R234). Reset is `State.reset`. There is no memory (R40). -/

namespace Sys2Proof.Machine

/-- How a run of the model ends in a fault state (R22). ILLEGAL and RANGE are no such end: they are next states (R204). -/
inductive Fault where
  /-- `ReadUnwritten(i)` (R22, R200 (c), D3, I14): a command or a host `ReadReg` read register `i` before anything wrote it
  since reset. The read has no effect but `State.endRun`, which records it in `State.modelFault` in a next state, and
  `serve` raises it at every later step: the run has ended (log 4). Safe: the hardware goes on where the model stops. -/
  | readUnwritten (r : Reg)
  deriving DecidableEq, Repr

/-- Why the model has no meaning for an instruction. -/
inductive Refusal where
  /-- Raised by an arm of `exec` whose instruction has no meaning yet; no arm raises it now (safe). -/
  | notModelled (mnemonic : String)
  deriving DecidableEq, Repr

/-- The host transactions (R234), and a raw access to a host-port address (R28, R29). -/
inductive HostTx where
  /-- `Reset` (R230). -/
  | reset
  /-- `Issue(w)` (R100, R234). -/
  | issue (w : CmdWord)
  /-- `WriteReg(i, v)` (R234). -/
  | writeReg (r : Reg) (v : Word)
  /-- `ReadReg(i)` (R234). -/
  | readReg (r : Reg)
  /-- `ReadStatus` (R26, R234). -/
  | readStatus
  /-- `ReadFaultInsn` (R27, R234). -/
  | readFaultInsn
  /-- A host read of an 8-bit port address (R29). -/
  | portRead (a : BitVec 8)
  /-- A host write of a 64-bit value to an 8-bit port address (R28, R29). -/
  | portWrite (a : BitVec 8) (v : Word)
  deriving DecidableEq, Repr

/-- The answer to a transaction (R234). -/
inductive Answer where
  | ok
  | rejected
  | value (v : Word)
  deriving DecidableEq, Repr

/-- The whole state. `b`, `written`, `fault`, `cause`, `faultInsn` are the record of R33. -/
structure State where
  /-- The bitboard registers b0..b15 (R20). -/
  b : Vector Word 16
  /-- Which registers have been written since reset; model-only (R22, R23). -/
  written : Vector Bool 16
  /-- STATUS.FAULT: the unit is FAULTED (R26, R205). -/
  fault : Bool
  /-- STATUS.CAUSE (R26, R201). -/
  cause : BitVec 8
  /-- FAULT_INSN, its bits [31:0] (R27). -/
  faultInsn : CmdWord
  /-- The ReadUnwritten that ended the run, if one did (R22, R200 (c); log 4). -/
  modelFault : Option Fault
  /-- The index of the next command of the host's list (R24; log 6). -/
  position : Nat
  /-- The host's transactions still to come, the next first (R234, R238; log 1). -/
  pending : List HostTx
  /-- The answers given so far, the oldest first (R234; log 2). -/
  answers : List Answer
  /-- How many free values have been used; the model's own field (log 5). -/
  freeCount : Nat
  deriving DecidableEq, Repr

/-- Right after reset (R230 to R232): STATUS and FAULT_INSN 0, no register written, no transaction yet. The registers'
zeros are the model's (the spec gives no value): DESIGN CHOICE, log 3. -/
def State.reset : State where
  b := Vector.replicate 16 0
  written := Vector.replicate 16 false
  fault := false
  cause := 0
  faultInsn := 0
  modelFault := none
  position := 0
  pending := []
  answers := []
  freeCount := 0

end Sys2Proof.Machine
end

