-- ==== Sys2Proof/Machine/Flags.lean ====
section
/-! DEFINITION. The status registers as the host reads them. BB64 has no flags (R25): a predicate's result goes to a
register, `truthWord` of Board. What the unit has is STATUS, FAULT_INSN and the FAULT output. -/

namespace Sys2Proof.Machine

/-- CAUSE 1, ILLEGAL (R201). -/
def causeIllegal : BitVec 8 := 1

/-- CAUSE 2, RANGE (R201). -/
def causeRange : BitVec 8 := 2

/-- STATUS as read: FAULT in bit 0, CAUSE in bits [15:8], the rest hardwired 0 (R26). -/
def State.status (s : State) : Word :=
  (BitVec.ofBool s.fault).setWidth 64 ||| (s.cause.setWidth 64 <<< (8 : Nat))

/-- FAULT_INSN as read: bits [63:32] are 0 (R27). -/
def State.faultInsnWord (s : State) : Word := s.faultInsn.setWidth 64

/-- The level output `FAULT`, equal to STATUS.FAULT at all times (R30, R208). -/
def State.faultOut (s : State) : Bool := s.fault

end Sys2Proof.Machine
end

