-- ==== Sys2Proof/Machine/Ops.lean ====
section
/-! DEFINITION. The named operations on the state: reading and writing a register, the check of the registers a command or
the host reads, fault entry and the one way out of it, answering a transaction. -/

namespace Sys2Proof.Machine

/-- The outcome of a meaning or a step. -/
abbrev Result := Host.Outcome State Fault Refusal

/-- The value of register `r` (R20). -/
def State.readB (s : State) (r : Reg) : Word := s.b[r]

/-- Has register `r` been written since reset (R22). -/
def State.isWritten (s : State) (r : Reg) : Bool := s.written[r]

/-- `x[r] <- v; written[r] <- 1` (R22, R100, R234). No register is hardwired (R20). -/
def State.writeB (s : State) (r : Reg) (v : Word) : State :=
  { s with b := s.b.set r v, written := s.written.set r true }

/-- The model's run ends in `ReadUnwritten(r)`: nothing of the unit changes, STATUS included. The spec itself orders this stop:
"the model's run ends in a fault state" (R200 (c); R22, R100, R203, D3), "the model stops" (I14). Its form: log 4. -/
def State.endRun (s : State) (r : Reg) : State := { s with modelFault := some (.readUnwritten r) }

/-- The first of the registers `rs`, in the order they are read, that has not been written since reset (R100, R203). -/
def firstUnwritten (s : State) (rs : List Reg) : Option Reg := rs.find? fun r => !s.isWritten r

/-- `k`, which reads the registers `rs`, unless one of them is unwritten: then the run ends at it and nothing of `k` happens,
a RANGE check included (R100, R203). -/
def afterReads (rs : List Reg) (s : State) (k : Result) : Result :=
  match firstUnwritten s rs with
  | some r => .next (s.endRun r)
  | none => k

/-- Fault entry for command word `w` and cause `c` (R204): three writes and nothing else. -/
def State.enterFault (s : State) (c : BitVec 8) (w : CmdWord) : State :=
  { s with fault := true, cause := c, faultInsn := w }

/-- The free values a `Reset` transaction leaves in the registers: "x[i] becomes unspecified" (R230; log 5). -/
def unspecifiedBoards (k : Nat) : Vector Word 16 := Vector.ofFn fun i => Config.freeBoard (k + i.val)

/-- `Reset` (R230), the only way out of FAULTED (R206). -/
def State.applyReset (s : State) : State :=
  { s with
    b := unspecifiedBoards s.freeCount
    written := Vector.replicate 16 false
    fault := false
    cause := 0
    faultInsn := 0
    freeCount := s.freeCount + 16 }

/-- The transaction is answered (R234). -/
def State.reply (s : State) (a : Answer) : State := { s with answers := s.answers ++ [a] }

/-- A command has completed, whether it succeeded or faulted: answered OK, the position one further (R24, R100, R204). -/
def State.complete (s : State) : State := { s.reply .ok with position := s.position + 1 }

/-- A command that was executed completes, unless a ReadUnwritten ended the run in it (R22, R24, R200 (c)). -/
def State.finish (s : State) : State :=
  match s.modelFault with
  | some _ => s
  | none => s.complete

/-- Apply `f` to a next state; a fault or a refusal stays. -/
def onNext (f : State → State) : Result → Result
  | .next s => .next (f s)
  | .fault r => .fault r
  | .refused r => .refused r

end Sys2Proof.Machine
end

