-- ==== Sys2Proof/Machine/Operands.lean ====
section
/-! DEFINITION. The execution order of R100 for each number of source registers: the sources are read, RS1 before RS2, and an
unwritten one ends the run; then the range is checked, then RD is written or RANGE is raised (R203). And the range
conditions of R202. -/

namespace Sys2Proof.Machine

/-- The end of a command: RD gets the value, or RANGE is raised for the command word (R100, R204). -/
def retire (cmd : CmdWord) (rd : Reg) (r : Option Word) (s : State) : Result :=
  match r with
  | some v => .next (s.writeB rd v)
  | none => .next (s.enterFault causeRange cmd)

/-- A command with no source that cannot raise RANGE. -/
def nullary (rd : Reg) (v : Word) (s : State) : Result := .next (s.writeB rd v)

/-- A command with no source and a ranged immediate. -/
def nullaryRanged (cmd : CmdWord) (rd : Reg) (r : Option Word) (s : State) : Result := retire cmd rd r s

/-- A command with source RS1 that cannot raise RANGE. -/
def unary (rd rs1 : Reg) (f : Word → Word) (s : State) : Result :=
  afterReads [rs1] s (.next (s.writeB rd (f (s.readB rs1))))

/-- A command with source RS1 and a ranged operand. -/
def unaryRanged (cmd : CmdWord) (rd rs1 : Reg) (f : Word → Option Word) (s : State) : Result :=
  afterReads [rs1] s (retire cmd rd (f (s.readB rs1)) s)

/-- A command with sources RS1 and RS2 that cannot raise RANGE. -/
def binary (rd rs1 rs2 : Reg) (f : Word → Word → Word) (s : State) : Result :=
  afterReads [rs1, rs2] s (.next (s.writeB rd (f (s.readB rs1) (s.readB rs2))))

/-- A command with sources RS1 and RS2 and a ranged operand. -/
def binaryRanged (cmd : CmdWord) (rd rs1 rs2 : Reg) (f : Word → Word → Option Word) (s : State) : Result :=
  afterReads [rs1, rs2] s (retire cmd rd (f (s.readB rs1) (s.readB rs2)) s)

/-- The value if the operand is at most `limit`, else RANGE (R202). -/
def upTo (limit n : Nat) (v : Word) : Option Word := if n ≤ limit then some v else none

/-- The legal amounts of SHL, SHR, SH.N and SH.S: 0..64 (R62, R202). -/
def maxAmount : Nat := 64

/-- The legal amounts of SH.E and SH.W and counts of EFILES and WFILES: 0..8 (R62, R202). -/
def maxFiles : Nat := 8

/-- A square index held in a register: all 64 bits are compared with 64 (R108, R114, R202). -/
def ifSquare (index : Word) (f : Nat → Word) : Option Word :=
  if index.toNat < 64 then some (f index.toNat) else none

end Sys2Proof.Machine
end

