-- ==== Sys2Proof/Machine/Attack.lean ====
section
/-! DEFINITION. Attack generation (R163 to R170): RS1 the source, RS2 the empty mask. -/

namespace Sys2Proof.Machine

/-- ATK.N (R163). -/
def execAtkN (rd rs1 rs2 : Reg) (s : State) : Result := binary rd rs1 rs2 (attack .n) s

/-- ATK.NE (R164). -/
def execAtkNE (rd rs1 rs2 : Reg) (s : State) : Result := binary rd rs1 rs2 (attack .ne) s

/-- ATK.E (R165). -/
def execAtkE (rd rs1 rs2 : Reg) (s : State) : Result := binary rd rs1 rs2 (attack .e) s

/-- ATK.SE (R166). -/
def execAtkSE (rd rs1 rs2 : Reg) (s : State) : Result := binary rd rs1 rs2 (attack .se) s

/-- ATK.S (R167). -/
def execAtkS (rd rs1 rs2 : Reg) (s : State) : Result := binary rd rs1 rs2 (attack .s) s

/-- ATK.SW (R168). -/
def execAtkSW (rd rs1 rs2 : Reg) (s : State) : Result := binary rd rs1 rs2 (attack .sw) s

/-- ATK.W (R169). -/
def execAtkW (rd rs1 rs2 : Reg) (s : State) : Result := binary rd rs1 rs2 (attack .w) s

/-- ATK.NW (R170). -/
def execAtkNW (rd rs1 rs2 : Reg) (s : State) : Result := binary rd rs1 rs2 (attack .nw) s

end Sys2Proof.Machine
end

