-- ==== Sys2Proof/WellFormed.lean ====
section
/-! DEFINITION. Which instruction terms have an encoding: every immediate fits the field its format gives it (R61, R62).
An immediate that fits but lies outside its legal range is well formed: it raises RANGE when executed (R202). -/

namespace Sys2Proof

/-- The I7 amount is `IMM[6:0]` (R62). -/
def amountFits (n : Nat) : Bool := decide (n < 128)

/-- The I6 and C6 square is `IMM[5:0]` (R62). -/
def squareFits (n : Nat) : Bool := decide (n < 64)

/-- The C4 count is `IMM[3:0]` (R62). -/
def countFits (n : Nat) : Bool := decide (n < 16)

/-- The C3 file or rank is `IMM[2:0]` (R62). -/
def indexFits (n : Nat) : Bool := decide (n < 8)

/-- Every immediate of the instruction fits its field. -/
def Instr.wf : Instr → Bool
  | .and _ _ _ => true
  | .or _ _ _ => true
  | .xor _ _ _ => true
  | .not _ _ => true
  | .shl _ _ n => amountFits n
  | .shr _ _ n => amountFits n
  | .sq _ n => squareFits n
  | .sqr _ _ => true
  | .file _ n => indexFits n
  | .rank _ n => indexFits n
  | .efiles _ n => countFits n
  | .wfiles _ n => countFits n
  | .isempty _ _ => true
  | .contains _ _ _ => true
  | .containsi _ _ n => squareFits n
  | .shN _ _ n => amountFits n
  | .shNE _ _ => true
  | .shE _ _ n => amountFits n
  | .shSE _ _ => true
  | .shS _ _ n => amountFits n
  | .shSW _ _ => true
  | .shW _ _ n => amountFits n
  | .shNW _ _ => true
  | .fillN _ _ _ => true
  | .fillNE _ _ _ => true
  | .fillE _ _ _ => true
  | .fillSE _ _ _ => true
  | .fillS _ _ _ => true
  | .fillSW _ _ _ => true
  | .fillW _ _ _ => true
  | .fillNW _ _ _ => true
  | .atkN _ _ _ => true
  | .atkNE _ _ _ => true
  | .atkE _ _ _ => true
  | .atkSE _ _ _ => true
  | .atkS _ _ _ => true
  | .atkSW _ _ _ => true
  | .atkW _ _ _ => true
  | .atkNW _ _ _ => true
  | .popcnt _ _ => true
  | .lsb _ _ => true
  | .clrlsb _ _ => true

/-- A well-formed instruction. -/
abbrev WellFormed (i : Instr) : Prop := i.wf = true

end Sys2Proof
end

