-- ==== Sys2Proof/Decode.lean ====
section
/-! DEFINITION. Decoding (R60 to R68), total on any 32-bit word and rejecting by name, then the encoder, written from the
same tables, and the opcode table's rows as data. -/

namespace Sys2Proof

/-- Why a word is illegal (R65). -/
inductive Reject where
  /-- R65 (a): OP is unassigned. -/
  | unassignedOpcode
  /-- R65 (b): a field that the format marks `0` is nonzero. -/
  | reservedField
  deriving DecidableEq, Repr

/-- `w[hi:lo]`, as an unsigned number (R7). -/
def bits (w : CmdWord) (hi lo : Nat) : Nat := w.toNat / 2 ^ lo % 2 ^ (hi + 1 - lo)

/-- A register number from a 4-bit field. -/
def regOf (n : Nat) : Reg := Fin.ofNat 16 n

/-- OP, bits [31:24] (R60). -/
def opField (w : CmdWord) : Nat := bits w 31 24

/-- RD, bits [23:20] (R60). -/
def rdField (w : CmdWord) : Reg := regOf (bits w 23 20)

/-- RS1, bits [19:16] (R60). -/
def rs1Field (w : CmdWord) : Reg := regOf (bits w 19 16)

/-- RS2, bits [15:12] (R60). -/
def rs2Field (w : CmdWord) : Reg := regOf (bits w 15 12)

/-- The answer of a format: the instruction if the fields marked `0` are zero (R61, R65 (b)). -/
def ifZero (unused : Bool) (i : Instr) : Except Reject Instr :=
  if unused then .ok i else .error .reservedField

/-- Format R: IMM is `0` (R61). -/
def decodeR (w : CmdWord) (mk : Reg → Reg → Reg → Instr) : Except Reject Instr :=
  ifZero (bits w 11 0 == 0) (mk (rdField w) (rs1Field w) (rs2Field w))

/-- Format U: RS2 and IMM are `0` (R61). -/
def decodeU (w : CmdWord) (mk : Reg → Reg → Instr) : Except Reject Instr :=
  ifZero (bits w 15 12 == 0 && bits w 11 0 == 0) (mk (rdField w) (rs1Field w))

/-- Format I7: RS2 and IMM[11:7] are `0`, the amount is IMM[6:0] (R61). -/
def decodeI7 (w : CmdWord) (mk : Reg → Reg → Nat → Instr) : Except Reject Instr :=
  ifZero (bits w 15 12 == 0 && bits w 11 7 == 0) (mk (rdField w) (rs1Field w) (bits w 6 0))

/-- Format I6: RS2 and IMM[11:6] are `0`, the square is IMM[5:0] (R61). -/
def decodeI6 (w : CmdWord) (mk : Reg → Reg → Nat → Instr) : Except Reject Instr :=
  ifZero (bits w 15 12 == 0 && bits w 11 6 == 0) (mk (rdField w) (rs1Field w) (bits w 5 0))

/-- Format C6: RS1, RS2 and IMM[11:6] are `0`, the square is IMM[5:0] (R61). -/
def decodeC6 (w : CmdWord) (mk : Reg → Nat → Instr) : Except Reject Instr :=
  ifZero (bits w 19 16 == 0 && bits w 15 12 == 0 && bits w 11 6 == 0) (mk (rdField w) (bits w 5 0))

/-- Format C4: RS1, RS2 and IMM[11:4] are `0`, n is IMM[3:0] (R61). -/
def decodeC4 (w : CmdWord) (mk : Reg → Nat → Instr) : Except Reject Instr :=
  ifZero (bits w 19 16 == 0 && bits w 15 12 == 0 && bits w 11 4 == 0) (mk (rdField w) (bits w 3 0))

/-- Format C3: RS1, RS2 and IMM[11:3] are `0`, the file or rank is IMM[2:0] (R61). -/
def decodeC3 (w : CmdWord) (mk : Reg → Nat → Instr) : Except Reject Instr :=
  ifZero (bits w 19 16 == 0 && bits w 15 12 == 0 && bits w 11 3 == 0) (mk (rdField w) (bits w 2 0))

/-- The decoding procedure of R68 over the opcode map of R64. -/
def decode (w : CmdWord) : Except Reject Instr :=
  match opField w with
  | 0x01 => decodeR w .and
  | 0x02 => decodeR w .or
  | 0x03 => decodeR w .xor
  | 0x04 => decodeU w .not
  | 0x05 => decodeI7 w .shl
  | 0x06 => decodeI7 w .shr
  | 0x08 => decodeC6 w .sq
  | 0x09 => decodeU w .sqr
  | 0x0A => decodeC3 w .file
  | 0x0B => decodeC3 w .rank
  | 0x0C => decodeC4 w .efiles
  | 0x0D => decodeC4 w .wfiles
  | 0x10 => decodeU w .isempty
  | 0x11 => decodeR w .contains
  | 0x12 => decodeI6 w .containsi
  | 0x20 => decodeI7 w .shN
  | 0x21 => decodeU w .shNE
  | 0x22 => decodeI7 w .shE
  | 0x23 => decodeU w .shSE
  | 0x24 => decodeI7 w .shS
  | 0x25 => decodeU w .shSW
  | 0x26 => decodeI7 w .shW
  | 0x27 => decodeU w .shNW
  | 0x28 => decodeR w .fillN
  | 0x29 => decodeR w .fillNE
  | 0x2A => decodeR w .fillE
  | 0x2B => decodeR w .fillSE
  | 0x2C => decodeR w .fillS
  | 0x2D => decodeR w .fillSW
  | 0x2E => decodeR w .fillW
  | 0x2F => decodeR w .fillNW
  | 0x30 => decodeR w .atkN
  | 0x31 => decodeR w .atkNE
  | 0x32 => decodeR w .atkE
  | 0x33 => decodeR w .atkSE
  | 0x34 => decodeR w .atkS
  | 0x35 => decodeR w .atkSW
  | 0x36 => decodeR w .atkW
  | 0x37 => decodeR w .atkNW
  | 0x40 => decodeU w .popcnt
  | 0x41 => decodeU w .lsb
  | 0x42 => decodeU w .clrlsb
  | _ => .error .unassignedOpcode

/-- A command word from its fields, at the places R60 gives them. -/
def cmdWord (op : Nat) (rd rs1 rs2 : Reg) (imm : Nat) : CmdWord :=
  BitVec.ofNat 32 (op * 2 ^ 24 + rd.val * 2 ^ 20 + rs1.val * 2 ^ 16 + rs2.val * 2 ^ 12 + imm)

/-- The command word of an instruction (R61, R64), for a well-formed one. -/
def encode : Instr → CmdWord
  | .and rd rs1 rs2 => cmdWord 0x01 rd rs1 rs2 0
  | .or rd rs1 rs2 => cmdWord 0x02 rd rs1 rs2 0
  | .xor rd rs1 rs2 => cmdWord 0x03 rd rs1 rs2 0
  | .not rd rs1 => cmdWord 0x04 rd rs1 0 0
  | .shl rd rs1 n => cmdWord 0x05 rd rs1 0 n
  | .shr rd rs1 n => cmdWord 0x06 rd rs1 0 n
  | .sq rd n => cmdWord 0x08 rd 0 0 n
  | .sqr rd rs1 => cmdWord 0x09 rd rs1 0 0
  | .file rd n => cmdWord 0x0A rd 0 0 n
  | .rank rd n => cmdWord 0x0B rd 0 0 n
  | .efiles rd n => cmdWord 0x0C rd 0 0 n
  | .wfiles rd n => cmdWord 0x0D rd 0 0 n
  | .isempty rd rs1 => cmdWord 0x10 rd rs1 0 0
  | .contains rd rs1 rs2 => cmdWord 0x11 rd rs1 rs2 0
  | .containsi rd rs1 n => cmdWord 0x12 rd rs1 0 n
  | .shN rd rs1 n => cmdWord 0x20 rd rs1 0 n
  | .shNE rd rs1 => cmdWord 0x21 rd rs1 0 0
  | .shE rd rs1 n => cmdWord 0x22 rd rs1 0 n
  | .shSE rd rs1 => cmdWord 0x23 rd rs1 0 0
  | .shS rd rs1 n => cmdWord 0x24 rd rs1 0 n
  | .shSW rd rs1 => cmdWord 0x25 rd rs1 0 0
  | .shW rd rs1 n => cmdWord 0x26 rd rs1 0 n
  | .shNW rd rs1 => cmdWord 0x27 rd rs1 0 0
  | .fillN rd rs1 rs2 => cmdWord 0x28 rd rs1 rs2 0
  | .fillNE rd rs1 rs2 => cmdWord 0x29 rd rs1 rs2 0
  | .fillE rd rs1 rs2 => cmdWord 0x2A rd rs1 rs2 0
  | .fillSE rd rs1 rs2 => cmdWord 0x2B rd rs1 rs2 0
  | .fillS rd rs1 rs2 => cmdWord 0x2C rd rs1 rs2 0
  | .fillSW rd rs1 rs2 => cmdWord 0x2D rd rs1 rs2 0
  | .fillW rd rs1 rs2 => cmdWord 0x2E rd rs1 rs2 0
  | .fillNW rd rs1 rs2 => cmdWord 0x2F rd rs1 rs2 0
  | .atkN rd rs1 rs2 => cmdWord 0x30 rd rs1 rs2 0
  | .atkNE rd rs1 rs2 => cmdWord 0x31 rd rs1 rs2 0
  | .atkE rd rs1 rs2 => cmdWord 0x32 rd rs1 rs2 0
  | .atkSE rd rs1 rs2 => cmdWord 0x33 rd rs1 rs2 0
  | .atkS rd rs1 rs2 => cmdWord 0x34 rd rs1 rs2 0
  | .atkSW rd rs1 rs2 => cmdWord 0x35 rd rs1 rs2 0
  | .atkW rd rs1 rs2 => cmdWord 0x36 rd rs1 rs2 0
  | .atkNW rd rs1 rs2 => cmdWord 0x37 rd rs1 rs2 0
  | .popcnt rd rs1 => cmdWord 0x40 rd rs1 0 0
  | .lsb rd rs1 => cmdWord 0x41 rd rs1 0 0
  | .clrlsb rd rs1 => cmdWord 0x42 rd rs1 0 0

/-- A row of the opcode table: a word is the instruction's when `word &&& mask = pattern` (R65). -/
structure OpcodeRow where
  mnemonic : String
  mask : CmdWord
  pattern : CmdWord
  deriving DecidableEq, Repr

/-- Set algebra and logical shifts (R64). -/
def opcodesAlgebra : List OpcodeRow :=
  [⟨"AND", 0xFF000FFF, 0x01000000⟩,
   ⟨"OR", 0xFF000FFF, 0x02000000⟩,
   ⟨"XOR", 0xFF000FFF, 0x03000000⟩,
   ⟨"NOT", 0xFF00FFFF, 0x04000000⟩,
   ⟨"SHL", 0xFF00FF80, 0x05000000⟩,
   ⟨"SHR", 0xFF00FF80, 0x06000000⟩]

/-- Constructors and tests (R64). -/
def opcodesConstruct : List OpcodeRow :=
  [⟨"SQ", 0xFF0FFFC0, 0x08000000⟩,
   ⟨"SQR", 0xFF00FFFF, 0x09000000⟩,
   ⟨"FILE", 0xFF0FFFF8, 0x0A000000⟩,
   ⟨"RANK", 0xFF0FFFF8, 0x0B000000⟩,
   ⟨"EFILES", 0xFF0FFFF0, 0x0C000000⟩,
   ⟨"WFILES", 0xFF0FFFF0, 0x0D000000⟩,
   ⟨"ISEMPTY", 0xFF00FFFF, 0x10000000⟩,
   ⟨"CONTAINS", 0xFF000FFF, 0x11000000⟩,
   ⟨"CONTAINSI", 0xFF00FFC0, 0x12000000⟩]

/-- Directional shifts (R64). -/
def opcodesShift : List OpcodeRow :=
  [⟨"SH.N", 0xFF00FF80, 0x20000000⟩,
   ⟨"SH.NE", 0xFF00FFFF, 0x21000000⟩,
   ⟨"SH.E", 0xFF00FF80, 0x22000000⟩,
   ⟨"SH.SE", 0xFF00FFFF, 0x23000000⟩,
   ⟨"SH.S", 0xFF00FF80, 0x24000000⟩,
   ⟨"SH.SW", 0xFF00FFFF, 0x25000000⟩,
   ⟨"SH.W", 0xFF00FF80, 0x26000000⟩,
   ⟨"SH.NW", 0xFF00FFFF, 0x27000000⟩]

/-- Occluded fills (R64). -/
def opcodesFill : List OpcodeRow :=
  [⟨"FILL.N", 0xFF000FFF, 0x28000000⟩,
   ⟨"FILL.NE", 0xFF000FFF, 0x29000000⟩,
   ⟨"FILL.E", 0xFF000FFF, 0x2A000000⟩,
   ⟨"FILL.SE", 0xFF000FFF, 0x2B000000⟩,
   ⟨"FILL.S", 0xFF000FFF, 0x2C000000⟩,
   ⟨"FILL.SW", 0xFF000FFF, 0x2D000000⟩,
   ⟨"FILL.W", 0xFF000FFF, 0x2E000000⟩,
   ⟨"FILL.NW", 0xFF000FFF, 0x2F000000⟩]

/-- Attacks (R64). -/
def opcodesAttack : List OpcodeRow :=
  [⟨"ATK.N", 0xFF000FFF, 0x30000000⟩,
   ⟨"ATK.NE", 0xFF000FFF, 0x31000000⟩,
   ⟨"ATK.E", 0xFF000FFF, 0x32000000⟩,
   ⟨"ATK.SE", 0xFF000FFF, 0x33000000⟩,
   ⟨"ATK.S", 0xFF000FFF, 0x34000000⟩,
   ⟨"ATK.SW", 0xFF000FFF, 0x35000000⟩,
   ⟨"ATK.W", 0xFF000FFF, 0x36000000⟩,
   ⟨"ATK.NW", 0xFF000FFF, 0x37000000⟩]

/-- Popcount and iteration (R64). -/
def opcodesCount : List OpcodeRow :=
  [⟨"POPCNT", 0xFF00FFFF, 0x40000000⟩,
   ⟨"LSB", 0xFF00FFFF, 0x41000000⟩,
   ⟨"CLRLSB", 0xFF00FFFF, 0x42000000⟩]

/-- The opcode table (R64, `spec/opcode_table.json`). -/
def opcodeTable : List OpcodeRow :=
  opcodesAlgebra ++ opcodesConstruct ++ opcodesShift ++
    opcodesFill ++ opcodesAttack ++ opcodesCount

/-- What the decoder reads from a table word: a command word is a value, not bytes in memory (R43, R45), so the number is
the word itself, and every bit from `nbits` up is 0. -/
def decodeTableWord (nbits w : Nat) : Option Instr :=
  (decode (BitVec.ofNat 32 (w % 2 ^ nbits))).toOption

end Sys2Proof
end

