-- ==== Sys2Proof/Machine/Construct.lean ====
section
/-! DEFINITION. The constructors (R107 to R112). -/

namespace Sys2Proof.Machine

/-- SQ (R107). -/
def execSq (rd : Reg) (square : Nat) (s : State) : Result := nullary rd (squareMask square) s

/-- SQR (R108). -/
def execSqr (rd rs1 : Reg) (s : State) : Result :=
  unaryRanged (encode (.sqr rd rs1)) rd rs1 (fun x => ifSquare x squareMask) s

/-- FILE (R109). -/
def execFile (rd : Reg) (index : Nat) (s : State) : Result := nullary rd (fileMask index) s

/-- RANK (R110). -/
def execRank (rd : Reg) (index : Nat) (s : State) : Result := nullary rd (rankMask index) s

/-- EFILES (R111). -/
def execEfiles (rd : Reg) (count : Nat) (s : State) : Result :=
  nullaryRanged (encode (.efiles rd count)) rd (upTo maxFiles count (eastFiles count)) s

/-- WFILES (R112). -/
def execWfiles (rd : Reg) (count : Nat) (s : State) : Result :=
  nullaryRanged (encode (.wfiles rd count)) rd (upTo maxFiles count (westFiles count)) s

end Sys2Proof.Machine
end

