-- ==== Sys2Proof/Machine/Count.lean ====
section
/-! DEFINITION. Popcount and bit iteration (R180 to R182). -/

namespace Sys2Proof.Machine

/-- POPCNT (R180). -/
def execPopcnt (rd rs1 : Reg) (s : State) : Result := unary rd rs1 (fun x => BitVec.ofNat 64 (popcount x)) s

/-- LSB (R181). -/
def execLsb (rd rs1 : Reg) (s : State) : Result := unary rd rs1 (fun x => BitVec.ofNat 64 (lowestBit x)) s

/-- CLRLSB (R182). -/
def execClrlsb (rd rs1 : Reg) (s : State) : Result := unary rd rs1 clearLowest s

end Sys2Proof.Machine
end

