-- ==== Sys2Proof/Machine/Fill.lean ====
section
/-! DEFINITION. Occluded fills (R154 to R161): RS1 the source, RS2 the empty mask. -/

namespace Sys2Proof.Machine

/-- FILL.N (R154). -/
def execFillN (rd rs1 rs2 : Reg) (s : State) : Result := binary rd rs1 rs2 (fill .n) s

/-- FILL.NE (R155). -/
def execFillNE (rd rs1 rs2 : Reg) (s : State) : Result := binary rd rs1 rs2 (fill .ne) s

/-- FILL.E (R156). -/
def execFillE (rd rs1 rs2 : Reg) (s : State) : Result := binary rd rs1 rs2 (fill .e) s

/-- FILL.SE (R157). -/
def execFillSE (rd rs1 rs2 : Reg) (s : State) : Result := binary rd rs1 rs2 (fill .se) s

/-- FILL.S (R158). -/
def execFillS (rd rs1 rs2 : Reg) (s : State) : Result := binary rd rs1 rs2 (fill .s) s

/-- FILL.SW (R159). -/
def execFillSW (rd rs1 rs2 : Reg) (s : State) : Result := binary rd rs1 rs2 (fill .sw) s

/-- FILL.W (R160). -/
def execFillW (rd rs1 rs2 : Reg) (s : State) : Result := binary rd rs1 rs2 (fill .w) s

/-- FILL.NW (R161). -/
def execFillNW (rd rs1 rs2 : Reg) (s : State) : Result := binary rd rs1 rs2 (fill .nw) s

end Sys2Proof.Machine
end

