-- ==== Sys2Proof/Machine/Membership.lean ====
section
/-! DEFINITION. The tests (R113 to R115). -/

namespace Sys2Proof.Machine

/-- ISEMPTY (R113). -/
def execIsempty (rd rs1 : Reg) (s : State) : Result := unary rd rs1 (fun x => truthWord (x == 0)) s

/-- CONTAINS (R114). -/
def execContains (rd rs1 rs2 : Reg) (s : State) : Result :=
  binaryRanged (encode (.contains rd rs1 rs2)) rd rs1 rs2 (fun x y => ifSquare y (memberBit x)) s

/-- CONTAINSI (R115). -/
def execContainsi (rd rs1 : Reg) (square : Nat) (s : State) : Result :=
  unary rd rs1 (fun x => memberBit x square) s

end Sys2Proof.Machine
end

