-- ==== Sys2Proof/Machine/SetAlgebra.lean ====
section
/-! DEFINITION. Set algebra and logical shifts (R101 to R106). -/

namespace Sys2Proof.Machine

/-- AND (R101). -/
def execAnd (rd rs1 rs2 : Reg) (s : State) : Result := binary rd rs1 rs2 (fun x y => x &&& y) s

/-- OR (R102). -/
def execOr (rd rs1 rs2 : Reg) (s : State) : Result := binary rd rs1 rs2 (fun x y => x ||| y) s

/-- XOR (R103). -/
def execXor (rd rs1 rs2 : Reg) (s : State) : Result := binary rd rs1 rs2 (fun x y => x ^^^ y) s

/-- NOT (R104). -/
def execNot (rd rs1 : Reg) (s : State) : Result := unary rd rs1 (fun x => ~~~x) s

/-- SHL (R105). -/
def execShl (rd rs1 : Reg) (amount : Nat) (s : State) : Result :=
  unaryRanged (encode (.shl rd rs1 amount)) rd rs1 (fun x => upTo maxAmount amount (shl x amount)) s

/-- SHR (R106). -/
def execShr (rd rs1 : Reg) (amount : Nat) (s : State) : Result :=
  unaryRanged (encode (.shr rd rs1 amount)) rd rs1 (fun x => upTo maxAmount amount (shr x amount)) s

end Sys2Proof.Machine
end

