-- ==== Sys2Proof/Machine/Shift.lean ====
section
/-! DEFINITION. The directional shifter (R131 to R138). -/

namespace Sys2Proof.Machine

/-- SH.N (R131). -/
def execShN (rd rs1 : Reg) (amount : Nat) (s : State) : Result :=
  unaryRanged (encode (.shN rd rs1 amount)) rd rs1 (fun x => upTo maxAmount amount (shiftNorth x amount)) s

/-- SH.NE (R135). -/
def execShNE (rd rs1 : Reg) (s : State) : Result := unary rd rs1 (stepDir .ne) s

/-- SH.E (R133). -/
def execShE (rd rs1 : Reg) (amount : Nat) (s : State) : Result :=
  unaryRanged (encode (.shE rd rs1 amount)) rd rs1 (fun x => upTo maxFiles amount (shiftEast x amount)) s

/-- SH.SE (R137). -/
def execShSE (rd rs1 : Reg) (s : State) : Result := unary rd rs1 (stepDir .se) s

/-- SH.S (R132). -/
def execShS (rd rs1 : Reg) (amount : Nat) (s : State) : Result :=
  unaryRanged (encode (.shS rd rs1 amount)) rd rs1 (fun x => upTo maxAmount amount (shiftSouth x amount)) s

/-- SH.SW (R138). -/
def execShSW (rd rs1 : Reg) (s : State) : Result := unary rd rs1 (stepDir .sw) s

/-- SH.W (R134). -/
def execShW (rd rs1 : Reg) (amount : Nat) (s : State) : Result :=
  unaryRanged (encode (.shW rd rs1 amount)) rd rs1 (fun x => upTo maxFiles amount (shiftWest x amount)) s

/-- SH.NW (R136). -/
def execShNW (rd rs1 : Reg) (s : State) : Result := unary rd rs1 (stepDir .nw) s

end Sys2Proof.Machine
end

