-- ==== Sys2Proof/Machine/Dispatch.lean ====
section
/-! DEFINITION. One arm per instruction: steps 3 to 6 of R100, for a decoded instruction of a unit that is not FAULTED
(the FAULTED check is `issue`'s, log 12). -/

namespace Sys2Proof.Machine

def exec (i : Instr) (s : State) : Host.Outcome State Fault Refusal :=
  match i with
  | .and rd rs1 rs2 => Sys2Proof.Machine.execAnd rd rs1 rs2 s
  | .or rd rs1 rs2 => Sys2Proof.Machine.execOr rd rs1 rs2 s
  | .xor rd rs1 rs2 => Sys2Proof.Machine.execXor rd rs1 rs2 s
  | .not rd rs1 => Sys2Proof.Machine.execNot rd rs1 s
  | .shl rd rs1 amount => Sys2Proof.Machine.execShl rd rs1 amount s
  | .shr rd rs1 amount => Sys2Proof.Machine.execShr rd rs1 amount s
  | .sq rd square => Sys2Proof.Machine.execSq rd square s
  | .sqr rd rs1 => Sys2Proof.Machine.execSqr rd rs1 s
  | .file rd index => Sys2Proof.Machine.execFile rd index s
  | .rank rd index => Sys2Proof.Machine.execRank rd index s
  | .efiles rd count => Sys2Proof.Machine.execEfiles rd count s
  | .wfiles rd count => Sys2Proof.Machine.execWfiles rd count s
  | .isempty rd rs1 => Sys2Proof.Machine.execIsempty rd rs1 s
  | .contains rd rs1 rs2 => Sys2Proof.Machine.execContains rd rs1 rs2 s
  | .containsi rd rs1 square => Sys2Proof.Machine.execContainsi rd rs1 square s
  | .shN rd rs1 amount => Sys2Proof.Machine.execShN rd rs1 amount s
  | .shNE rd rs1 => Sys2Proof.Machine.execShNE rd rs1 s
  | .shE rd rs1 amount => Sys2Proof.Machine.execShE rd rs1 amount s
  | .shSE rd rs1 => Sys2Proof.Machine.execShSE rd rs1 s
  | .shS rd rs1 amount => Sys2Proof.Machine.execShS rd rs1 amount s
  | .shSW rd rs1 => Sys2Proof.Machine.execShSW rd rs1 s
  | .shW rd rs1 amount => Sys2Proof.Machine.execShW rd rs1 amount s
  | .shNW rd rs1 => Sys2Proof.Machine.execShNW rd rs1 s
  | .fillN rd rs1 rs2 => Sys2Proof.Machine.execFillN rd rs1 rs2 s
  | .fillNE rd rs1 rs2 => Sys2Proof.Machine.execFillNE rd rs1 rs2 s
  | .fillE rd rs1 rs2 => Sys2Proof.Machine.execFillE rd rs1 rs2 s
  | .fillSE rd rs1 rs2 => Sys2Proof.Machine.execFillSE rd rs1 rs2 s
  | .fillS rd rs1 rs2 => Sys2Proof.Machine.execFillS rd rs1 rs2 s
  | .fillSW rd rs1 rs2 => Sys2Proof.Machine.execFillSW rd rs1 rs2 s
  | .fillW rd rs1 rs2 => Sys2Proof.Machine.execFillW rd rs1 rs2 s
  | .fillNW rd rs1 rs2 => Sys2Proof.Machine.execFillNW rd rs1 rs2 s
  | .atkN rd rs1 rs2 => Sys2Proof.Machine.execAtkN rd rs1 rs2 s
  | .atkNE rd rs1 rs2 => Sys2Proof.Machine.execAtkNE rd rs1 rs2 s
  | .atkE rd rs1 rs2 => Sys2Proof.Machine.execAtkE rd rs1 rs2 s
  | .atkSE rd rs1 rs2 => Sys2Proof.Machine.execAtkSE rd rs1 rs2 s
  | .atkS rd rs1 rs2 => Sys2Proof.Machine.execAtkS rd rs1 rs2 s
  | .atkSW rd rs1 rs2 => Sys2Proof.Machine.execAtkSW rd rs1 rs2 s
  | .atkW rd rs1 rs2 => Sys2Proof.Machine.execAtkW rd rs1 rs2 s
  | .atkNW rd rs1 rs2 => Sys2Proof.Machine.execAtkNW rd rs1 rs2 s
  | .popcnt rd rs1 => Sys2Proof.Machine.execPopcnt rd rs1 s
  | .lsb rd rs1 => Sys2Proof.Machine.execLsb rd rs1 s
  | .clrlsb rd rs1 => Sys2Proof.Machine.execClrlsb rd rs1 s

end Sys2Proof.Machine
end

