-- ==== Sys2Proof/Machine/Port.lean ====
section
/-! DEFINITION. The host port: what each transaction does and answers (R234), the address map (R29), and the bytes of a
word for a byte-split host bus (R44). -/

namespace Sys2Proof.Machine

/-- `Issue(w)` (R100, R203): rejected while FAULTED (R205), else an illegal word enters the ILLEGAL fault (R65, R204), else
the decoded instruction is executed: a ReadUnwritten, or its effect or RANGE. A command that was accepted completes, but one
that a ReadUnwritten ended (R24, R200, R204). -/
def issue (w : CmdWord) (s : State) : Result :=
  if s.fault then .next (s.reply .rejected)
  else
    match decode w with
    | .error _ => .next (s.enterFault causeIllegal w).complete
    | .ok i => onNext State.finish (exec i s)

/-- `WriteReg(i, v)`: rejected while FAULTED (R205, R234). This is the document's `fromValue` (D26). -/
def hostWriteReg (r : Reg) (v : Word) (s : State) : Result :=
  if s.fault then .next (s.reply .rejected) else .next ((s.writeB r v).reply .ok)

/-- `ReadReg(i)`: answered even while FAULTED (R205, R234); of an unwritten register it ends the run (R22, R234). -/
def hostReadReg (r : Reg) (s : State) : Result := afterReads [r] s (.next (s.reply (.value (s.readB r))))

/-- `ReadStatus` (R234). -/
def hostReadStatus (s : State) : Result := .next (s.reply (.value s.status))

/-- `ReadFaultInsn` (R234). -/
def hostReadFaultInsn (s : State) : Result := .next (s.reply (.value s.faultInsnWord))

/-- `Reset` (R230, R234). -/
def hostReset (s : State) : Result := .next (s.applyReset.reply .ok)

/-- What a host-port address names (R29). -/
inductive PortTarget where
  | register (r : Reg)
  | status
  | faultInsn
  | cmd
  | unmapped
  deriving DecidableEq, Repr

/-- The address map of R29. -/
def portTarget (a : BitVec 8) : PortTarget :=
  if a.toNat < 16 then .register (regOf a.toNat)
  else if a.toNat = 0x10 then .status
  else if a.toNat = 0x11 then .faultInsn
  else if a.toNat = 0x12 then .cmd
  else .unmapped

/-- A host read of an address: CMD and the unmapped ones read 0 (R28, R29). -/
def portRead (a : BitVec 8) (s : State) : Result :=
  match portTarget a with
  | .register r => hostReadReg r s
  | .status => hostReadStatus s
  | .faultInsn => hostReadFaultInsn s
  | .cmd => .next (s.reply (.value 0))
  | .unmapped => .next (s.reply (.value 0))

/-- A host write to an address: CMD issues `v[31:0]` (R28); STATUS, FAULT_INSN and the unmapped ones ignore it and answer
OK, FAULTED or not (R26, R27, R29, R205, D18). -/
def portWrite (a : BitVec 8) (v : Word) (s : State) : Result :=
  match portTarget a with
  | .register r => hostWriteReg r v s
  | .status => .next (s.reply .ok)
  | .faultInsn => .next (s.reply .ok)
  | .cmd => issue (v.setWidth 32) s
  | .unmapped => .next (s.reply .ok)

/-- One host transaction (R234). -/
def transact (t : HostTx) (s : State) : Result :=
  match t with
  | .reset => hostReset s
  | .issue w => issue w s
  | .writeReg r v => hostWriteReg r v s
  | .readReg r => hostReadReg r s
  | .readStatus => hostReadStatus s
  | .readFaultInsn => hostReadFaultInsn s
  | .portRead a => portRead a s
  | .portWrite a v => portWrite a v s

/-- The unit takes the next transaction, or waits for the host in the state it has where there is none (R48, R215, R234).
A run that a ReadUnwritten ended goes no further (R22, R200 (c); log 4). -/
def serve (s : State) : Result :=
  match s.modelFault with
  | some f => .fault f
  | none =>
    match s.pending with
    | [] => .next s
    | t :: rest => transact t { s with pending := rest }

/-- Byte `k` of a word, its bits [8k+7:8k]: rank `k+1` of the board (R42, R44). -/
def byteOf (v : Word) (k : Nat) : BitVec 8 := (v >>> (8 * k)).setWidth 8

/-- The eight bytes in the order a byte-split bus carries them (R44, `HOST_BYTE_ORDER`). -/
def busBytes (o : ByteOrder) (v : Word) : List (BitVec 8) :=
  match o with
  | .little => (List.range 8).map (byteOf v)
  | .big => ((List.range 8).map (byteOf v)).reverse

/-- A word from its bytes, byte 0 first. -/
def joinBytes : List (BitVec 8) → Word
  | [] => 0
  | x :: xs => x.setWidth 64 ||| (joinBytes xs <<< (8 : Nat))

/-- The word that eight bus bytes stand for (R44). -/
def wordOfBus (o : ByteOrder) (bs : List (BitVec 8)) : Word :=
  match o with
  | .little => joinBytes bs
  | .big => joinBytes bs.reverse

end Sys2Proof.Machine
end

