-- ==== Sys2Proof/Machine/Step.lean ====
section
/-! DEFINITION. One step: one host transaction (R234). -/

namespace Sys2Proof.Machine

/-- One step of the machine: the host's next transaction, or the fault that ended the run. -/
def step (s : State) : Host.Outcome State Fault Refusal := serve s

/-- The command word `w` presented as the host's next transaction: the unit fetches nothing (R53), the host presents each
command (R24, log 10). -/
def State.withFetchWord (s : State) (nbits w : Nat) : State :=
  { s with pending := .issue (BitVec.ofNat 32 (w % 2 ^ nbits)) :: s.pending }

end Sys2Proof.Machine
end

