-- ==== Sys2Proof/Machine/Assembler.lean ====
section
/-! DEFINITION. Pseudo-instructions (R70) and the assembler syntax (R69). Text is a list of characters. No step of the
machine uses this file: it says which command word a line of the spec's assembly stands for. -/

namespace Sys2Proof.Machine

/-- The pseudo-instructions (R70). -/
inductive Pseudo where
  | mov (rd rs : Reg)
  | clr (rd : Reg)
  | full (rd : Reg)
  | anda (rd rs : Reg)
  | ora (rd rs : Reg)
  | xora (rd rs : Reg)
  | nota (rd : Reg)
  | shla (rd : Reg) (n : Nat)
  | shra (rd : Reg) (n : Nat)
  | step (d : Dir) (rd rs : Reg)
  deriving DecidableEq, Repr

/-- Their expansions, one instruction each (R70). -/
def expand : Pseudo → Instr
  | .mov rd rs => .or rd rs rs
  | .clr rd => .efiles rd 0
  | .full rd => .efiles rd 8
  | .anda rd rs => .and rd rd rs
  | .ora rd rs => .or rd rd rs
  | .xora rd rs => .xor rd rd rs
  | .nota rd => .not rd rd
  | .shla rd n => .shl rd rd n
  | .shra rd n => .shr rd rd n
  | .step .n rd rs => .shN rd rs 1
  | .step .s rd rs => .shS rd rs 1
  | .step .e rd rs => .shE rd rs 1
  | .step .w rd rs => .shW rd rs 1
  | .step .ne rd rs => .shNE rd rs
  | .step .nw rd rs => .shNW rd rs
  | .step .se rd rs => .shSE rd rs
  | .step .sw rd rs => .shSW rd rs

/-- A line up to its comment (R69). -/
def withoutComment (line : List Char) : List Char := line.takeWhile (· != ';')

/-- Is the character a space (log 14). -/
def isBlank (c : Char) : Bool := c == ' ' || c == '\t'

/-- Without the spaces at either end. -/
def trimmed (cs : List Char) : List Char :=
  ((cs.dropWhile isBlank).reverse.dropWhile isBlank).reverse

/-- The mnemonic and the rest of a line. -/
def splitMnemonic (cs : List Char) : List Char × List Char :=
  (cs.takeWhile (fun c => !isBlank c), cs.dropWhile (fun c => !isBlank c))

/-- The operands between commas. -/
def splitOperands : List Char → List (List Char)
  | [] => [[]]
  | c :: cs =>
    if c == ',' then [] :: splitOperands cs
    else
      match splitOperands cs with
      | [] => [[c]]
      | op :: ops => (c :: op) :: ops

/-- A digit's value in a base, at most 16 (log 14: hexadecimal digits in either case). -/
def digitOf (base : Nat) (c : Char) : Option Nat :=
  let v :=
    if '0' ≤ c ∧ c ≤ '9' then c.toNat - '0'.toNat
    else if 'a' ≤ c ∧ c ≤ 'f' then c.toNat - 'a'.toNat + 10
    else if 'A' ≤ c ∧ c ≤ 'F' then c.toNat - 'A'.toNat + 10
    else 16
  if v < base then some v else none

/-- A number from its digits, the most significant first; at least one digit. -/
def numberOf (base : Nat) : List Char → Option Nat
  | [] => none
  | cs => cs.foldl (fun acc c => acc.bind fun n => (digitOf base c).map (n * base + ·)) (some 0)

/-- An immediate, decimal or `0x` hexadecimal (R69). -/
def immOf : List Char → Option Nat
  | '0' :: 'x' :: cs => numberOf 16 cs
  | cs => numberOf 10 cs

/-- The name of a register (R69). -/
def regName (r : Reg) : List Char :=
  if r.val < 10 then ['b', Char.ofNat ('0'.toNat + r.val)] else ['b', '1', Char.ofNat ('0'.toNat + (r.val - 10))]

/-- A register from its name `b0`..`b15` (R69). -/
def regNamed (cs : List Char) : Option Reg := (List.finRange 16).find? fun r => regName r == cs

/-- The operands of a line that has three registers. -/
def ops3 (mk : Reg → Reg → Reg → Instr) : List (List Char) → Option Instr
  | [x, y, z] => (regNamed x).bind fun a => (regNamed y).bind fun b => (regNamed z).map fun c => mk a b c
  | _ => none

/-- The operands of a line that has two registers. -/
def ops2 (mk : Reg → Reg → Instr) : List (List Char) → Option Instr
  | [x, y] => (regNamed x).bind fun a => (regNamed y).map fun b => mk a b
  | _ => none

/-- The operands of a line that has one register. -/
def ops1 (mk : Reg → Instr) : List (List Char) → Option Instr
  | [x] => (regNamed x).map mk
  | _ => none

/-- The operands of a line that has two registers and an immediate. -/
def ops2i (mk : Reg → Reg → Nat → Instr) : List (List Char) → Option Instr
  | [x, y, z] => (regNamed x).bind fun a => (regNamed y).bind fun b => (immOf z).map fun n => mk a b n
  | _ => none

/-- The operands of a line that has one register and an immediate. -/
def ops1i (mk : Reg → Nat → Instr) : List (List Char) → Option Instr
  | [x, y] => (regNamed x).bind fun a => (immOf y).map fun n => mk a n
  | _ => none

/-- Mnemonics of set algebra, constructors, tests and counting, with their operands (R64, R69). -/
def mnemonicsPlain : List (String × (List (List Char) → Option Instr)) :=
  [("and", ops3 .and), ("or", ops3 .or), ("xor", ops3 .xor), ("not", ops2 .not),
   ("shl", ops2i .shl), ("shr", ops2i .shr), ("sq", ops1i .sq), ("sqr", ops2 .sqr),
   ("file", ops1i .file), ("rank", ops1i .rank), ("efiles", ops1i .efiles), ("wfiles", ops1i .wfiles),
   ("isempty", ops2 .isempty), ("contains", ops3 .contains), ("containsi", ops2i .containsi),
   ("popcnt", ops2 .popcnt), ("lsb", ops2 .lsb), ("clrlsb", ops2 .clrlsb)]

/-- Mnemonics of the shifter, the fills and the attacks (R64, R69). -/
def mnemonicsDirected : List (String × (List (List Char) → Option Instr)) :=
  [("sh.n", ops2i .shN), ("sh.ne", ops2 .shNE), ("sh.e", ops2i .shE), ("sh.se", ops2 .shSE),
   ("sh.s", ops2i .shS), ("sh.sw", ops2 .shSW), ("sh.w", ops2i .shW), ("sh.nw", ops2 .shNW),
   ("fill.n", ops3 .fillN), ("fill.ne", ops3 .fillNE), ("fill.e", ops3 .fillE), ("fill.se", ops3 .fillSE),
   ("fill.s", ops3 .fillS), ("fill.sw", ops3 .fillSW), ("fill.w", ops3 .fillW), ("fill.nw", ops3 .fillNW),
   ("atk.n", ops3 .atkN), ("atk.ne", ops3 .atkNE), ("atk.e", ops3 .atkE), ("atk.se", ops3 .atkSE),
   ("atk.s", ops3 .atkS), ("atk.sw", ops3 .atkSW), ("atk.w", ops3 .atkW), ("atk.nw", ops3 .atkNW)]

/-- Mnemonics of the pseudo-instructions (R70). -/
def mnemonicsPseudo : List (String × (List (List Char) → Option Instr)) :=
  [("mov", ops2 fun d s => expand (.mov d s)), ("clr", ops1 fun d => expand (.clr d)),
   ("full", ops1 fun d => expand (.full d)), ("anda", ops2 fun d s => expand (.anda d s)),
   ("ora", ops2 fun d s => expand (.ora d s)), ("xora", ops2 fun d s => expand (.xora d s)),
   ("nota", ops1 fun d => expand (.nota d)), ("shla", ops1i fun d n => expand (.shla d n)),
   ("shra", ops1i fun d n => expand (.shra d n)),
   ("step.n", ops2 fun d s => expand (.step .n d s)), ("step.s", ops2 fun d s => expand (.step .s d s)),
   ("step.e", ops2 fun d s => expand (.step .e d s)), ("step.w", ops2 fun d s => expand (.step .w d s)),
   ("step.ne", ops2 fun d s => expand (.step .ne d s)), ("step.nw", ops2 fun d s => expand (.step .nw d s)),
   ("step.se", ops2 fun d s => expand (.step .se d s)), ("step.sw", ops2 fun d s => expand (.step .sw d s))]

/-- The instruction a line of assembly stands for (R69, R70): none for a line that is no instruction or whose immediate
does not fit its field. -/
def assemble (line : List Char) : Option Instr :=
  let parts := splitMnemonic (trimmed (withoutComment line))
  let operands := (splitOperands parts.2).map trimmed
  let table := mnemonicsPlain ++ mnemonicsDirected ++ mnemonicsPseudo
  match table.find? (fun row => row.1.toList == parts.1) with
  | none => none
  | some row => (row.2 operands).bind fun i => if i.wf then some i else none

end Sys2Proof.Machine
end

