-- ==== Sys2Proof/Safety.lean ====
section
/-! DEFINITION. The terms claims are stated in: what a command that succeeds or faults does to the whole state, when a run
is good, the fault-record invariant, what each encoding format decodes to, and the declarative meaning of fill, attack
and iteration. Nothing the machine runs is here. -/

namespace Sys2Proof.Machine

/-- Every field but the registers, the written bits and the model fault is as before: the status registers, the
position, the host's lists, the free-value count. -/
structure RestKept (s t : State) : Prop where
  fault : t.fault = s.fault
  cause : t.cause = s.cause
  faultInsn : t.faultInsn = s.faultInsn
  position : t.position = s.position
  pending : t.pending = s.pending
  answers : t.answers = s.answers
  freeCount : t.freeCount = s.freeCount

/-- Every register but `rd` holds what it held, and is written iff it was. -/
def OthersKept (rd : Reg) (s t : State) : Prop :=
  ∀ r : Reg, r ≠ rd → t.readB r = s.readB r ∧ t.isWritten r = s.isWritten r

/-- Every register holds what it held, and is written iff it was. -/
def BoardsKept (s t : State) : Prop := ∀ r : Reg, t.readB r = s.readB r ∧ t.isWritten r = s.isWritten r

/-- `t` is `s` after a command wrote `v` to `rd` and did nothing else (R100). -/
structure Wrote (rd : Reg) (v : Word) (s t : State) : Prop where
  value : t.readB rd = v
  marked : t.isWritten rd = true
  others : OthersKept rd s t
  model : t.modelFault = s.modelFault
  rest : RestKept s t

/-- `t` is `s` after the fault of cause `c` was entered for command word `w`, and nothing else (R204). -/
structure Entered (c : BitVec 8) (w : CmdWord) (s t : State) : Prop where
  fault : t.fault = true
  cause : t.cause = c
  faultInsn : t.faultInsn = w
  boards : BoardsKept s t
  model : t.modelFault = s.modelFault
  position : t.position = s.position
  pending : t.pending = s.pending
  answers : t.answers = s.answers
  freeCount : t.freeCount = s.freeCount

/-- The instruction completes from `s` with its own effect, writing `v` to `rd`. -/
def Completes (i : Instr) (s : State) (rd : Reg) (v : Word) : Prop :=
  ∃ t, exec i s = .next t ∧ Wrote rd v s t

/-- The instruction raises RANGE from `s`, recording the command word `w`. -/
def RaisesRange (i : Instr) (s : State) (w : CmdWord) : Prop :=
  ∃ t, exec i s = .next t ∧ Entered causeRange w s t

/-- The instruction completes writing to `rd` a value whose bits are `p` (square by square). -/
def CompletesBits (i : Instr) (s : State) (rd : Reg) (p : Nat → Prop) : Prop :=
  ∃ v : Word, Completes i s rd v ∧ ∀ q, q < 64 → (v.getLsbD q = true ↔ p q)

/-- The sources are readable as R100 asks: written since reset. -/
abbrev Readable (s : State) (rs : List Reg) : Prop := ∀ r ∈ rs, s.isWritten r = true

/-- A good run so far: not FAULTED, and not ended by a ReadUnwritten (R206, R238). -/
def RunIsGood (s : State) : Prop := s.fault = false ∧ s.modelFault = none

/-- The source registers of an instruction, RS1 before RS2 (R100). -/
def sourcesOf : Instr → List Reg
  | .and _ x y => [x, y]
  | .or _ x y => [x, y]
  | .xor _ x y => [x, y]
  | .not _ x => [x]
  | .shl _ x _ => [x]
  | .shr _ x _ => [x]
  | .sq _ _ => []
  | .sqr _ x => [x]
  | .file _ _ => []
  | .rank _ _ => []
  | .efiles _ _ => []
  | .wfiles _ _ => []
  | .isempty _ x => [x]
  | .contains _ x y => [x, y]
  | .containsi _ x _ => [x]
  | .shN _ x _ => [x]
  | .shNE _ x => [x]
  | .shE _ x _ => [x]
  | .shSE _ x => [x]
  | .shS _ x _ => [x]
  | .shSW _ x => [x]
  | .shW _ x _ => [x]
  | .shNW _ x => [x]
  | .fillN _ x y => [x, y]
  | .fillNE _ x y => [x, y]
  | .fillE _ x y => [x, y]
  | .fillSE _ x y => [x, y]
  | .fillS _ x y => [x, y]
  | .fillSW _ x y => [x, y]
  | .fillW _ x y => [x, y]
  | .fillNW _ x y => [x, y]
  | .atkN _ x y => [x, y]
  | .atkNE _ x y => [x, y]
  | .atkE _ x y => [x, y]
  | .atkSE _ x y => [x, y]
  | .atkS _ x y => [x, y]
  | .atkSW _ x y => [x, y]
  | .atkW _ x y => [x, y]
  | .atkNW _ x y => [x, y]
  | .popcnt _ x => [x]
  | .lsb _ x => [x]
  | .clrlsb _ x => [x]

/-- The destination register RD of an instruction. -/
def destOf : Instr → Reg
  | .and d _ _ => d
  | .or d _ _ => d
  | .xor d _ _ => d
  | .not d _ => d
  | .shl d _ _ => d
  | .shr d _ _ => d
  | .sq d _ => d
  | .sqr d _ => d
  | .file d _ => d
  | .rank d _ => d
  | .efiles d _ => d
  | .wfiles d _ => d
  | .isempty d _ => d
  | .contains d _ _ => d
  | .containsi d _ _ => d
  | .shN d _ _ => d
  | .shNE d _ => d
  | .shE d _ _ => d
  | .shSE d _ => d
  | .shS d _ _ => d
  | .shSW d _ => d
  | .shW d _ _ => d
  | .shNW d _ => d
  | .fillN d _ _ => d
  | .fillNE d _ _ => d
  | .fillE d _ _ => d
  | .fillSE d _ _ => d
  | .fillS d _ _ => d
  | .fillSW d _ _ => d
  | .fillW d _ _ => d
  | .fillNW d _ _ => d
  | .atkN d _ _ => d
  | .atkNE d _ _ => d
  | .atkE d _ _ => d
  | .atkSE d _ _ => d
  | .atkS d _ _ => d
  | .atkSW d _ _ => d
  | .atkW d _ _ => d
  | .atkNW d _ _ => d
  | .popcnt d _ => d
  | .lsb d _ => d
  | .clrlsb d _ => d

/-- The complete list of RANGE conditions (R202). -/
def outOfRange (s : State) : Instr → Bool
  | .and _ _ _ => false
  | .or _ _ _ => false
  | .xor _ _ _ => false
  | .not _ _ => false
  | .shl _ _ n => decide (64 < n)
  | .shr _ _ n => decide (64 < n)
  | .sq _ _ => false
  | .sqr _ x => decide (64 ≤ (s.readB x).toNat)
  | .file _ _ => false
  | .rank _ _ => false
  | .efiles _ n => decide (8 < n)
  | .wfiles _ n => decide (8 < n)
  | .isempty _ _ => false
  | .contains _ _ y => decide (64 ≤ (s.readB y).toNat)
  | .containsi _ _ _ => false
  | .shN _ _ n => decide (64 < n)
  | .shNE _ _ => false
  | .shE _ _ n => decide (8 < n)
  | .shSE _ _ => false
  | .shS _ _ n => decide (64 < n)
  | .shSW _ _ => false
  | .shW _ _ n => decide (8 < n)
  | .shNW _ _ => false
  | .fillN _ _ _ => false
  | .fillNE _ _ _ => false
  | .fillE _ _ _ => false
  | .fillSE _ _ _ => false
  | .fillS _ _ _ => false
  | .fillSW _ _ _ => false
  | .fillW _ _ _ => false
  | .fillNW _ _ _ => false
  | .atkN _ _ _ => false
  | .atkNE _ _ _ => false
  | .atkE _ _ _ => false
  | .atkSE _ _ _ => false
  | .atkS _ _ _ => false
  | .atkSW _ _ _ => false
  | .atkW _ _ _ => false
  | .atkNW _ _ _ => false
  | .popcnt _ _ => false
  | .lsb _ _ => false
  | .clrlsb _ _ => false

/-- The fault record is coherent: no record while not FAULTED (R26, R27); while FAULTED, CAUSE is ILLEGAL and FAULT_INSN
is no legal word, or CAUSE is RANGE and FAULT_INSN is a legal one (R201, R204). -/
def FaultRecord (s : State) : Prop :=
  (s.fault = false ∧ s.cause = 0 ∧ s.faultInsn = 0) ∨
  (s.fault = true ∧ s.cause = causeIllegal ∧ ∃ e, decode s.faultInsn = .error e) ∨
  (s.fault = true ∧ s.cause = causeRange ∧ ∃ i, decode s.faultInsn = .ok i)

/-- The states differ at most in what unwritten registers hold. -/
structure SameButUnwritten (s t : State) : Prop where
  written : t.written = s.written
  boards : ∀ r : Reg, s.isWritten r = true → t.readB r = s.readB r
  model : t.modelFault = s.modelFault
  rest : RestKept s t

/-- The unit's own registers and records are untouched. -/
structure UnitKept (s t : State) : Prop where
  b : t.b = s.b
  written : t.written = s.written
  fault : t.fault = s.fault
  cause : t.cause = s.cause
  faultInsn : t.faultInsn = s.faultInsn

/-- The host's reads: the three read transactions, and a read of any port address. -/
def isHostRead : HostTx → Bool
  | .reset => false
  | .issue _ => false
  | .writeReg _ _ => false
  | .readReg _ => true
  | .readStatus => true
  | .readFaultInsn => true
  | .portRead _ => true
  | .portWrite _ _ => false

/-- The transactions that write register `r` with `v` (R29, R234). -/
def HostWrites (x : HostTx) (r : Reg) (v : Word) : Prop :=
  x = .writeReg r v ∨ ∃ a : BitVec 8, x = .portWrite a v ∧ a.toNat = r.val

/-- The transactions that read register `r` (R29, R234). -/
def HostReads (x : HostTx) (r : Reg) : Prop :=
  x = .readReg r ∨ ∃ a : BitVec 8, x = .portRead a ∧ a.toNat = r.val

/-- The state once the next transaction has been taken off the host's list. -/
def taken (s : State) : State := { s with pending := s.pending.tail }

/-- How many squares a set holds. -/
def memberCount (v : Word) : Nat := (Finset.univ.filter fun i : Fin 64 => v.getLsbD i.val = true).card

/-- The transactions that issue a command word: `Issue(w)`, or a write to CMD at 0x12 (R28). -/
def Issues (x : HostTx) (w : CmdWord) : Prop :=
  x = .issue w ∨ ∃ v : Word, x = .portWrite 0x12 v ∧ v.setWidth 32 = w

/-- Words of format R with opcode `op` decode to `mk`, and are illegal when IMM is nonzero (R61, R65). -/
def EncodedR (op : Nat) (mk : Reg → Reg → Reg → Instr) : Prop :=
  ∀ (rd rs1 rs2 : Reg) (imm : Nat), imm < 4096 →
    decode (cmdWord op rd rs1 rs2 imm) = if imm = 0 then .ok (mk rd rs1 rs2) else .error .reservedField

/-- Words of format U (R61, R65). -/
def EncodedU (op : Nat) (mk : Reg → Reg → Instr) : Prop :=
  ∀ (rd rs1 rs2 : Reg) (imm : Nat), imm < 4096 →
    decode (cmdWord op rd rs1 rs2 imm) =
      if rs2 = 0 ∧ imm = 0 then .ok (mk rd rs1) else .error .reservedField

/-- Words of the formats with two registers and an immediate below `bound`: I7 (128) and I6 (64) (R61, R65). -/
def EncodedI (bound op : Nat) (mk : Reg → Reg → Nat → Instr) : Prop :=
  ∀ (rd rs1 rs2 : Reg) (imm : Nat), imm < 4096 →
    decode (cmdWord op rd rs1 rs2 imm) =
      if rs2 = 0 ∧ imm < bound then .ok (mk rd rs1 imm) else .error .reservedField

/-- Words of the formats with one register and an immediate below `bound`: C6 (64), C4 (16), C3 (8) (R61, R65). -/
def EncodedC (bound op : Nat) (mk : Reg → Nat → Instr) : Prop :=
  ∀ (rd rs1 rs2 : Reg) (imm : Nat), imm < 4096 →
    decode (cmdWord op rd rs1 rs2 imm) =
      if rs1 = 0 ∧ rs2 = 0 ∧ imm < bound then .ok (mk rd imm) else .error .reservedField

/-- The three rounds of R151 written out with left shifts by `k`, `2k`, `4k` and pre-mask `m`. -/
def roundsLeft (k : Nat) (m s e : Word) : Word :=
  let p := e &&& m
  let g := s ||| (p &&& (s <<< k))
  let q := p &&& (p <<< k)
  let h := g ||| (q &&& (g <<< (2 * k)))
  h ||| ((q &&& (q <<< (2 * k))) &&& (h <<< (4 * k)))

/-- The three rounds of R151 written out with right shifts by `k`, `2k`, `4k` and pre-mask `m`. -/
def roundsRight (k : Nat) (m s e : Word) : Word :=
  let p := e &&& m
  let g := s ||| (p &&& (s >>> k))
  let q := p &&& (p >>> k)
  let h := g ||| (q &&& (g >>> (2 * k)))
  h ||| ((q &&& (q >>> (2 * k))) &&& (h >>> (4 * k)))

/-- The square `k` steps from `o` lies on the board, and is in `e`. -/
def OpenAt (d : Dir) (e : Word) (o k : Nat) : Prop := ∃ p, ray d o k = some p ∧ e.getLsbD p = true

/-- What the fill holds (R152): the origins, and the squares reached through squares of `e`. -/
def FillReaches (d : Dir) (s e : Word) (q : Nat) : Prop :=
  s.getLsbD q = true ∨
    ∃ o k, o < 64 ∧ s.getLsbD o = true ∧ 1 ≤ k ∧ k ≤ 7 ∧ ray d o k = some q ∧ ∀ j, 1 ≤ j → j ≤ k → OpenAt d e o j

/-- What the attack holds (R171 (a)). -/
def AttackReaches (d : Dir) (s e : Word) (q : Nat) : Prop :=
  ∃ o k, o < 64 ∧ s.getLsbD o = true ∧ 1 ≤ k ∧ ray d o k = some q ∧ ∀ j, 1 ≤ j → j < k → OpenAt d e o j

/-- The members of a set, in increasing order. -/
def squaresOf (v : Word) : List Nat := (List.range 64).filter fun q => v.getLsbD q

/-- The state an outcome goes on from, if it does. -/
def nextOf : Result → Option State
  | .next t => some t
  | .fault _ => none
  | .refused _ => none

/-- `n` rounds of the iteration protocol of R183 with cursor `c` and index register `i`: `lsb i, c`, the host reads `i`,
`clrlsb c, c`. The values the host reads, and the state after. -/
def iterationRounds (c i : Reg) : Nat → State → Option (List Word × State)
  | 0, s => some ([], s)
  | n + 1, s =>
    (nextOf (exec (.lsb i c) s)).bind fun t =>
      (nextOf (exec (.clrlsb c c) t)).bind fun u =>
        (iterationRounds c i n u).map fun out => (t.readB i :: out.1, out.2)

end Sys2Proof.Machine
end

