-- ==== Sys2Proof/Certificates/Slice0/Obligations.lean ====
section
/-! DEFINITION. The statements for the provers, from the numbered rules of spec/. -/

open Sys2Proof Sys2Proof.Machine

/-! ### Encoding -/

/-- R61, R64, R68: no bit of an encoding is dropped. -/
def Obligations.DecodeOfEncodeIsTheInstruction : Prop :=
  ∀ i : Instr, WellFormed i → decode (encode i) = .ok i

/-- R60, R61, R65: a legal word is the encoding of what it decodes to, and that instruction is well formed. -/
def Obligations.EncodeOfDecodeIsTheWord : Prop :=
  ∀ (w : CmdWord) (i : Instr), decode w = .ok i → WellFormed i ∧ encode i = w

/-- R65: the unassigned opcodes, the words with a nonzero unused field, the table's mask and match, and what an illegal
word does when it is issued in a run that no ReadUnwritten has ended. -/
def Obligations.IllegalWordsAreThoseOfNoTableRow : Prop :=
  ∀ w : CmdWord,
    ((∃ i, decode w = .ok i) ↔ ∃ row ∈ opcodeTable, w &&& row.mask = row.pattern) ∧
    (decode w = .error .unassignedOpcode ↔
      opField w = 0x00 ∨ opField w = 0x07 ∨ (0x0E ≤ opField w ∧ opField w ≤ 0x0F) ∨
      (0x13 ≤ opField w ∧ opField w ≤ 0x1F) ∨ (0x38 ≤ opField w ∧ opField w ≤ 0x3F) ∨
      (0x43 ≤ opField w ∧ opField w ≤ 0xFF)) ∧
    ∀ (s : State) (rest : List HostTx), s.modelFault = none → s.fault = false → s.pending = .issue w :: rest →
      (∀ i, decode w ≠ .ok i) →
      ∃ t, step s = .next t ∧ t.fault = true ∧ t.cause = 1 ∧ t.faultInsn = w ∧ BoardsKept s t ∧
        t.modelFault = s.modelFault

/-- R68: each OP value selects at most one row, and each assigned one exactly one. -/
def Obligations.OpcodeRowsNeverOverlap : Prop :=
  opcodeTable.length = 42 ∧
    ∀ r₁ ∈ opcodeTable, ∀ r₂ ∈ opcodeTable, ∀ w : CmdWord,
      w &&& r₁.mask = r₁.pattern → w &&& r₂.mask = r₂.pattern → r₁ = r₂

/-- Words written out in R69's table and in the examples of R109, R111, R133 and R180 (sanity). -/
def Obligations.WordsOfTheSpecDecode : Prop :=
  decode 0x01123000 = .ok (.and 1 2 3) ∧ decode 0x04440000 = .ok (.not 4 4) ∧
  decode 0x22120003 = .ok (.shE 1 2 3) ∧ decode 0x12520023 = .ok (.containsi 5 2 35) ∧
  decode 0x08000003 = .ok (.sq 0 3) ∧ decode 0x0A100003 = .ok (.file 1 3) ∧
  decode 0x0C100002 = .ok (.efiles 1 2) ∧ decode 0x40120000 = .ok (.popcnt 1 2)

/-! ### Running a command -/

/-- R100, R28: a step that takes a command word, issued or written to CMD, runs the instruction it decodes to; around it,
the transaction is taken, and the command is finished: answered OK with the position one further, unless a ReadUnwritten
ended the run in it (that the lists and the position stand in the state, and how a run ends, are the model's choices and
readings: logs 1, 2, 4 and 6). -/
def Obligations.StepRunsTheDecodedCommand : Prop :=
  ∀ (s : State) (x : HostTx) (rest : List HostTx) (w : CmdWord) (i : Instr),
    s.modelFault = none → s.pending = x :: rest → Issues x w → s.fault = false → decode w = .ok i →
    WellFormed i ∧ step s = onNext State.finish (exec i (taken s)) ∧
      (∀ u : State, u.modelFault = none → u.finish = u.complete) ∧
      ∀ (u : State) (f : Fault), u.modelFault = some f → u.finish = u

/-- A step of a run that has not ended answers a next state; it takes the host's next transaction, if there is one, and either
answers it or records the ReadUnwritten that ends the run; a run that has ended answers that fault at every step. Every part
of this is the model's choice: the list of transactions and the waiting for one (log 1), the list of answers (log 2), and
that a read of an unwritten register is itself a next state, after which the run is in its fault state (log 4; R22 and
R200 (c) say that the run ends). -/
def Obligations.EveryStepAnswersOneTransaction : Prop :=
  ∀ s : State,
    (s.modelFault = none → ∃ t, step s = .next t ∧ t.pending = s.pending.tail ∧ (s.pending = [] → t = s) ∧
      (s.pending ≠ [] → (t.modelFault = none ∧ ∃ a, t.answers = s.answers ++ [a]) ∨
        ∃ r, s.isWritten r = false ∧ t.modelFault = some (.readUnwritten r) ∧ t.answers = s.answers)) ∧
    ∀ f, s.modelFault = some f → step s = .fault f

/-- R100, R203: the outcomes of an issued command in the order they are taken: rejection, ILLEGAL, ReadUnwritten of the first
unwritten source (RS1 before RS2), RANGE, success; the earlier wins and only it is taken. That the command that ends the run
answers a next state holding nothing new but the record, with no answer and the position kept, and that the step after it
answers the fault, is the model's form of R200 (c)'s end of the run (log 4). -/
def Obligations.OutcomesAreTakenInPriorityOrder : Prop :=
  ∀ (s : State) (x : HostTx) (rest : List HostTx) (w : CmdWord),
    s.modelFault = none → s.pending = x :: rest → Issues x w →
    (s.fault = true → step s = .next ((taken s).reply .rejected)) ∧
    (s.fault = false → (∀ i, decode w ≠ .ok i) → ∃ u, Entered 1 w (taken s) u ∧ step s = .next u.complete) ∧
    ∀ i, s.fault = false → decode w = .ok i →
      (∀ (before after : List Reg) (r : Reg), sourcesOf i = before ++ r :: after → Readable s before →
        s.isWritten r = false →
        ∃ t, step s = .next t ∧ UnitKept s t ∧ t.position = s.position ∧ t.pending = rest ∧ t.answers = s.answers ∧
          t.freeCount = s.freeCount ∧ t.modelFault = some (.readUnwritten r) ∧ step t = .fault (.readUnwritten r)) ∧
      (Readable s (sourcesOf i) → outOfRange s i = true → ∃ u, Entered 2 w (taken s) u ∧ step s = .next u.complete) ∧
      (Readable s (sourcesOf i) → outOfRange s i = false →
        ∃ u v, Wrote (destOf i) v (taken s) u ∧ step s = .next u.complete)

/-- R202: with readable sources an instruction raises RANGE exactly under the listed condition, and otherwise completes. -/
def Obligations.RangeListIsComplete : Prop :=
  ∀ (i : Instr) (s : State), WellFormed i → s.fault = false → Readable s (sourcesOf i) →
    (outOfRange s i = true → RaisesRange i s (encode i)) ∧
    (outOfRange s i = false → ∃ v, Completes i s (destOf i) v)

/-- The frame of all 42 instructions, over every state, unwritten sources included. That a read of an unwritten register
answers a next state with the record that ends the run is the model's choice (log 4); that nothing of the unit changes in it,
a RANGE fault included, is R100, R200 (c) and R203. -/
def Obligations.EveryInstructionWritesAtMostItsDestination : Prop :=
  ∀ (i : Instr) (s : State), ∃ t, exec i s = .next t ∧ OthersKept (destOf i) s t ∧
    t.position = s.position ∧ t.pending = s.pending ∧ t.answers = s.answers ∧ t.freeCount = s.freeCount ∧
    (∀ (before after : List Reg) (r : Reg), sourcesOf i = before ++ r :: after → Readable s before →
      s.isWritten r = false → UnitKept s t ∧ t.modelFault = some (.readUnwritten r)) ∧
    (Readable s (sourcesOf i) → t.modelFault = s.modelFault ∧
      (outOfRange s i = true → BoardsKept s t ∧ t.fault = true ∧ t.cause = 2 ∧ t.faultInsn = encode i) ∧
      (outOfRange s i = false → t.isWritten (destOf i) = true ∧ t.fault = s.fault ∧ t.cause = s.cause ∧
        t.faultInsn = s.faultInsn))

/-! ### Set algebra, constructors, tests -/

/-- R101, R102, R103. -/
def Obligations.SetAlgebraWritesBitwiseResult : Prop :=
  EncodedR 0x01 .and ∧ EncodedR 0x02 .or ∧ EncodedR 0x03 .xor ∧
  ∀ (s : State) (rd rs1 rs2 : Reg), s.fault = false → Readable s [rs1, rs2] →
    CompletesBits (.and rd rs1 rs2) s rd
      (fun q => (s.readB rs1).getLsbD q = true ∧ (s.readB rs2).getLsbD q = true) ∧
    CompletesBits (.or rd rs1 rs2) s rd
      (fun q => (s.readB rs1).getLsbD q = true ∨ (s.readB rs2).getLsbD q = true) ∧
    CompletesBits (.xor rd rs1 rs2) s rd
      (fun q => (s.readB rs1).getLsbD q ≠ (s.readB rs2).getLsbD q)

/-- R104. -/
def Obligations.NotWritesTheComplement : Prop :=
  EncodedU 0x04 .not ∧
  ∀ (s : State) (rd rs1 : Reg), s.fault = false → Readable s [rs1] →
    CompletesBits (.not rd rs1) s rd (fun q => (s.readB rs1).getLsbD q = false)

/-- R105, R106. -/
def Obligations.LogicalShiftsMoveEveryBit : Prop :=
  EncodedI 128 0x05 .shl ∧ EncodedI 128 0x06 .shr ∧
  ∀ (s : State) (rd rs1 : Reg) (n : Nat), s.fault = false → Readable s [rs1] → n < 128 →
    (n ≤ 64 → CompletesBits (.shl rd rs1 n) s rd (fun q => n ≤ q ∧ (s.readB rs1).getLsbD (q - n) = true)) ∧
    (64 < n → RaisesRange (.shl rd rs1 n) s (cmdWord 0x05 rd rs1 0 n)) ∧
    (n ≤ 64 → CompletesBits (.shr rd rs1 n) s rd (fun q => (s.readB rs1).getLsbD (q + n) = true)) ∧
    (64 < n → RaisesRange (.shr rd rs1 n) s (cmdWord 0x06 rd rs1 0 n))

/-- R107. -/
def Obligations.SqWritesTheSingleSquare : Prop :=
  EncodedC 64 0x08 .sq ∧
  ∀ (s : State) (rd : Reg) (n : Nat), s.fault = false → n < 64 → CompletesBits (.sq rd n) s rd (fun q => q = n)

/-- R108. -/
def Obligations.SqrWritesTheSingleSquareOrRange : Prop :=
  EncodedU 0x09 .sqr ∧
  ∀ (s : State) (rd rs1 : Reg), s.fault = false → Readable s [rs1] →
    ((s.readB rs1).toNat < 64 → CompletesBits (.sqr rd rs1) s rd (fun q => q = (s.readB rs1).toNat)) ∧
    (64 ≤ (s.readB rs1).toNat → RaisesRange (.sqr rd rs1) s (cmdWord 0x09 rd rs1 0 0))

/-- R109, R110. -/
def Obligations.FileAndRankWriteTheirMasks : Prop :=
  EncodedC 8 0x0A .file ∧ EncodedC 8 0x0B .rank ∧
  ∀ (s : State) (rd : Reg) (n : Nat), s.fault = false → n < 8 →
    CompletesBits (.file rd n) s rd (fun q => q % 8 = n) ∧ CompletesBits (.rank rd n) s rd (fun q => q / 8 = n)

/-- R111, R112, with the rule's table of values. -/
def Obligations.MultiFileMasksOrRange : Prop :=
  EncodedC 16 0x0C .efiles ∧ EncodedC 16 0x0D .wfiles ∧
  (∀ (s : State) (rd : Reg) (n : Nat), s.fault = false → n < 16 →
    (n ≤ 8 → Completes (.efiles rd n) s rd (eastFiles n)) ∧
    (8 < n → RaisesRange (.efiles rd n) s (cmdWord 0x0C rd 0 0 n)) ∧
    (n ≤ 8 → Completes (.wfiles rd n) s rd (westFiles n)) ∧
    (8 < n → RaisesRange (.wfiles rd n) s (cmdWord 0x0D rd 0 0 n))) ∧
  (∀ n q : Nat, n ≤ 8 → q < 64 →
    ((eastFiles n).getLsbD q = true ↔ 8 - n ≤ q % 8) ∧ ((westFiles n).getLsbD q = true ↔ q % 8 < n)) ∧
  (∀ n : Nat, n ≤ 8 → westFiles n = ~~~(eastFiles (8 - n))) ∧
  (List.range 9).map eastFiles =
    [0x0000000000000000, 0x8080808080808080, 0xC0C0C0C0C0C0C0C0, 0xE0E0E0E0E0E0E0E0, 0xF0F0F0F0F0F0F0F0,
     0xF8F8F8F8F8F8F8F8, 0xFCFCFCFCFCFCFCFC, 0xFEFEFEFEFEFEFEFE, 0xFFFFFFFFFFFFFFFF] ∧
  (List.range 9).map westFiles =
    [0x0000000000000000, 0x0101010101010101, 0x0303030303030303, 0x0707070707070707, 0x0F0F0F0F0F0F0F0F,
     0x1F1F1F1F1F1F1F1F, 0x3F3F3F3F3F3F3F3F, 0x7F7F7F7F7F7F7F7F, 0xFFFFFFFFFFFFFFFF]

/-- R113. -/
def Obligations.IsemptyWritesTheVerdict : Prop :=
  EncodedU 0x10 .isempty ∧
  ∀ (s : State) (rd rs1 : Reg), s.fault = false → Readable s [rs1] →
    ((∀ q, q < 64 → (s.readB rs1).getLsbD q = false) → Completes (.isempty rd rs1) s rd 1) ∧
    ((∃ q, q < 64 ∧ (s.readB rs1).getLsbD q = true) → Completes (.isempty rd rs1) s rd 0)

/-- R114. -/
def Obligations.ContainsTestsTheSquareOrRange : Prop :=
  EncodedR 0x11 .contains ∧
  ∀ (s : State) (rd rs1 rs2 : Reg), s.fault = false → Readable s [rs1, rs2] →
    ((s.readB rs2).toNat < 64 → Completes (.contains rd rs1 rs2) s rd
      (if (s.readB rs1).getLsbD (s.readB rs2).toNat then 1 else 0)) ∧
    (64 ≤ (s.readB rs2).toNat → RaisesRange (.contains rd rs1 rs2) s (cmdWord 0x11 rd rs1 rs2 0))

/-- R115. -/
def Obligations.ContainsiTestsTheSquare : Prop :=
  EncodedI 64 0x12 .containsi ∧
  ∀ (s : State) (rd rs1 : Reg) (n : Nat), s.fault = false → Readable s [rs1] → n < 64 →
    Completes (.containsi rd rs1 n) s rd (if (s.readB rs1).getLsbD n then 1 else 0)

/-! ### Shifter -/

/-- R131, R132. -/
def Obligations.NorthAndSouthShiftWholeRanks : Prop :=
  EncodedI 128 0x20 .shN ∧ EncodedI 128 0x24 .shS ∧
  ∀ (s : State) (rd rs1 : Reg) (n : Nat), s.fault = false → Readable s [rs1] → n < 128 →
    (n ≤ 64 → CompletesBits (.shN rd rs1 n) s rd
      (fun q => 8 * n ≤ q ∧ (s.readB rs1).getLsbD (q - 8 * n) = true)) ∧
    (64 < n → RaisesRange (.shN rd rs1 n) s (cmdWord 0x20 rd rs1 0 n)) ∧
    (n ≤ 64 → CompletesBits (.shS rd rs1 n) s rd (fun q => (s.readB rs1).getLsbD (q + 8 * n) = true)) ∧
    (64 < n → RaisesRange (.shS rd rs1 n) s (cmdWord 0x24 rd rs1 0 n))

/-- R133, R134: a square moves within its rank or falls off. -/
def Obligations.EastAndWestShiftWithinTheRank : Prop :=
  EncodedI 128 0x22 .shE ∧ EncodedI 128 0x26 .shW ∧
  ∀ (s : State) (rd rs1 : Reg) (n : Nat), s.fault = false → Readable s [rs1] → n < 128 →
    (n ≤ 8 → CompletesBits (.shE rd rs1 n) s rd
      (fun q => n ≤ q % 8 ∧ (s.readB rs1).getLsbD (q - n) = true)) ∧
    (8 < n → RaisesRange (.shE rd rs1 n) s (cmdWord 0x22 rd rs1 0 n)) ∧
    (n ≤ 8 → CompletesBits (.shW rd rs1 n) s rd
      (fun q => q % 8 + n < 8 ∧ (s.readB rs1).getLsbD (q + n) = true)) ∧
    (8 < n → RaisesRange (.shW rd rs1 n) s (cmdWord 0x26 rd rs1 0 n))

/-- R135, R136, R137, R138. -/
def Obligations.DiagonalShiftsMaskTheEnteringFile : Prop :=
  EncodedU 0x21 .shNE ∧ EncodedU 0x27 .shNW ∧ EncodedU 0x23 .shSE ∧ EncodedU 0x25 .shSW ∧
  ∀ (s : State) (rd rs1 : Reg), s.fault = false → Readable s [rs1] →
    Completes (.shNE rd rs1) s rd ((s.readB rs1 <<< 9) &&& 0xFEFEFEFEFEFEFEFE) ∧
    Completes (.shNW rd rs1) s rd ((s.readB rs1 <<< 7) &&& 0x7F7F7F7F7F7F7F7F) ∧
    Completes (.shSE rd rs1) s rd ((s.readB rs1 >>> 7) &&& 0xFEFEFEFEFEFEFEFE) ∧
    Completes (.shSW rd rs1) s rd ((s.readB rs1 >>> 9) &&& 0x7F7F7F7F7F7F7F7F)

/-- R139: geometry, multi-step as iterated single steps, the pre-mask form, and where the result is 0. -/
def Obligations.ShifterMovesSquaresGeometrically : Prop :=
  (∀ (d : Dir) (v : Word) (q : Nat), q < 64 →
    ((stepDir d v).getLsbD q = true ↔ ∃ o, o < 64 ∧ v.getLsbD o = true ∧ neighbour d o = some q)) ∧
  (∀ (v : Word) (n : Nat), n ≤ 64 →
    shiftNorth v n = (stepDir .n)^[n] v ∧ shiftSouth v n = (stepDir .s)^[n] v) ∧
  (∀ (v : Word) (n : Nat), n ≤ 8 →
    shiftEast v n = (stepDir .e)^[n] v ∧ shiftWest v n = (stepDir .w)^[n] v ∧
    shiftEast v n = (v &&& ~~~(eastFiles n)) <<< n ∧ shiftWest v n = (v &&& ~~~(westFiles n)) >>> n) ∧
  (∀ (v : Word) (n : Nat), 8 ≤ n → shiftNorth v n = 0 ∧ shiftSouth v n = 0) ∧
  ∀ v : Word, shiftEast v 8 = 0 ∧ shiftWest v 8 = 0

/-! ### Fill and attack -/

/-- R154 to R161: the three rounds with each direction's offsets and pre-mask, as the rules give them. -/
def Obligations.FillsRunThreeRounds : Prop :=
  EncodedR 0x28 .fillN ∧ EncodedR 0x29 .fillNE ∧ EncodedR 0x2A .fillE ∧ EncodedR 0x2B .fillSE ∧
  EncodedR 0x2C .fillS ∧ EncodedR 0x2D .fillSW ∧ EncodedR 0x2E .fillW ∧ EncodedR 0x2F .fillNW ∧
  ∀ (s : State) (rd rs1 rs2 : Reg), s.fault = false → Readable s [rs1, rs2] →
    Completes (.fillN rd rs1 rs2) s rd (roundsLeft 8 0xFFFFFFFFFFFFFFFF (s.readB rs1) (s.readB rs2)) ∧
    Completes (.fillNE rd rs1 rs2) s rd (roundsLeft 9 0xFEFEFEFEFEFEFEFE (s.readB rs1) (s.readB rs2)) ∧
    Completes (.fillE rd rs1 rs2) s rd (roundsLeft 1 0xFEFEFEFEFEFEFEFE (s.readB rs1) (s.readB rs2)) ∧
    Completes (.fillSE rd rs1 rs2) s rd (roundsRight 7 0xFEFEFEFEFEFEFEFE (s.readB rs1) (s.readB rs2)) ∧
    Completes (.fillS rd rs1 rs2) s rd (roundsRight 8 0xFFFFFFFFFFFFFFFF (s.readB rs1) (s.readB rs2)) ∧
    Completes (.fillSW rd rs1 rs2) s rd (roundsRight 9 0x7F7F7F7F7F7F7F7F (s.readB rs1) (s.readB rs2)) ∧
    Completes (.fillW rd rs1 rs2) s rd (roundsRight 1 0x7F7F7F7F7F7F7F7F (s.readB rs1) (s.readB rs2)) ∧
    Completes (.fillNW rd rs1 rs2) s rd (roundsLeft 7 0x7F7F7F7F7F7F7F7F (s.readB rs1) (s.readB rs2))

/-- R163 to R170: one masked step after the fill. -/
def Obligations.AttacksStepOnceAfterTheFill : Prop :=
  EncodedR 0x30 .atkN ∧ EncodedR 0x31 .atkNE ∧ EncodedR 0x32 .atkE ∧ EncodedR 0x33 .atkSE ∧
  EncodedR 0x34 .atkS ∧ EncodedR 0x35 .atkSW ∧ EncodedR 0x36 .atkW ∧ EncodedR 0x37 .atkNW ∧
  ∀ (s : State) (rd rs1 rs2 : Reg), s.fault = false → Readable s [rs1, rs2] →
    Completes (.atkN rd rs1 rs2) s rd
      (roundsLeft 8 0xFFFFFFFFFFFFFFFF (s.readB rs1) (s.readB rs2) <<< 8) ∧
    Completes (.atkNE rd rs1 rs2) s rd
      ((roundsLeft 9 0xFEFEFEFEFEFEFEFE (s.readB rs1) (s.readB rs2) <<< 9) &&& 0xFEFEFEFEFEFEFEFE) ∧
    Completes (.atkE rd rs1 rs2) s rd
      ((roundsLeft 1 0xFEFEFEFEFEFEFEFE (s.readB rs1) (s.readB rs2) <<< 1) &&& 0xFEFEFEFEFEFEFEFE) ∧
    Completes (.atkSE rd rs1 rs2) s rd
      ((roundsRight 7 0xFEFEFEFEFEFEFEFE (s.readB rs1) (s.readB rs2) >>> 7) &&& 0xFEFEFEFEFEFEFEFE) ∧
    Completes (.atkS rd rs1 rs2) s rd
      (roundsRight 8 0xFFFFFFFFFFFFFFFF (s.readB rs1) (s.readB rs2) >>> 8) ∧
    Completes (.atkSW rd rs1 rs2) s rd
      ((roundsRight 9 0x7F7F7F7F7F7F7F7F (s.readB rs1) (s.readB rs2) >>> 9) &&& 0x7F7F7F7F7F7F7F7F) ∧
    Completes (.atkW rd rs1 rs2) s rd
      ((roundsRight 1 0x7F7F7F7F7F7F7F7F (s.readB rs1) (s.readB rs2) >>> 1) &&& 0x7F7F7F7F7F7F7F7F) ∧
    Completes (.atkNW rd rs1 rs2) s rd
      ((roundsLeft 7 0x7F7F7F7F7F7F7F7F (s.readB rs1) (s.readB rs2) <<< 7) &&& 0x7F7F7F7F7F7F7F7F)

/-- R152: the Kogge-Stone fill is the occluded fill. -/
def Obligations.FillIsTheOccludedReach : Prop :=
  ∀ (d : Dir) (s e : Word) (q : Nat), q < 64 → ((fill d s e).getLsbD q = true ↔ FillReaches d s e q)

/-- R153: the edge cases. -/
def Obligations.FillEdgeCases : Prop :=
  ∀ (d : Dir) (s e : Word),
    fill d 0 e = 0 ∧ fill d s 0 = s ∧ (∀ q, s.getLsbD q = true → (fill d s e).getLsbD q = true) ∧
    ∀ q, q < 64 → ((fill d s fullBoard).getLsbD q = true ↔
      ∃ o k, o < 64 ∧ s.getLsbD o = true ∧ ray d o k = some q)

/-- R171: what an attack holds, its edge cases, and the unions for the rule's position. -/
def Obligations.AttackIsTheRayUpToTheBlocker : Prop :=
  (∀ (d : Dir) (s e : Word) (q : Nat), q < 64 → ((attack d s e).getLsbD q = true ↔ AttackReaches d s e q)) ∧
  (∀ (d : Dir) (s : Word), attack d s 0 = stepDir d s) ∧
  (∀ (d : Dir) (o q : Nat), o < 64 → q < 64 →
    ((attack d (squareMask o) fullBoard).getLsbD q = true ↔ q ≠ o ∧ ∃ k, ray d o k = some q)) ∧
  (∀ (d : Dir) (s e : Word) (q : Nat), (attack d s e).getLsbD q = true →
    ∃ o k, s.getLsbD o = true ∧ 1 ≤ k ∧ ray d o k = some q) ∧
  attack .n 0x0000000008000000 0xFFF6DFFFB5FFFDFF ||| attack .s 0x0000000008000000 0xFFF6DFFFB5FFFDFF |||
    attack .e 0x0000000008000000 0xFFF6DFFFB5FFFDFF ||| attack .w 0x0000000008000000 0xFFF6DFFFB5FFFDFF =
    0x0008080876080808 ∧
  attack .ne 0x0000000008000000 0xFFF6DFFFB5FFFDFF ||| attack .nw 0x0000000008000000 0xFFF6DFFFB5FFFDFF |||
    attack .se 0x0000000008000000 0xFFF6DFFFB5FFFDFF ||| attack .sw 0x0000000008000000 0xFFF6DFFFB5FFFDFF =
    0x0001221400142240 ∧
  popcount 0x0008080876080808 = 11 ∧ popcount 0x0001221400142240 = 10

/-! ### Count and iterate -/

/-- R180. -/
def Obligations.PopcntCountsTheMembers : Prop :=
  EncodedU 0x40 .popcnt ∧
  ∀ (s : State) (rd rs1 : Reg), s.fault = false → Readable s [rs1] →
    Completes (.popcnt rd rs1) s rd (BitVec.ofNat 64 (memberCount (s.readB rs1)))

/-- R181. -/
def Obligations.LsbFindsTheLowestMember : Prop :=
  EncodedU 0x41 .lsb ∧
  ∀ (s : State) (rd rs1 : Reg), s.fault = false → Readable s [rs1] →
    (s.readB rs1 = 0 → Completes (.lsb rd rs1) s rd 64) ∧
    ∀ i, i < 64 → (s.readB rs1).getLsbD i = true → (∀ j, j < i → (s.readB rs1).getLsbD j = false) →
      Completes (.lsb rd rs1) s rd (BitVec.ofNat 64 i)

/-- R182. -/
def Obligations.ClrlsbRemovesTheLowestMember : Prop :=
  EncodedU 0x42 .clrlsb ∧
  ∀ (s : State) (rd rs1 : Reg), s.fault = false → Readable s [rs1] →
    Completes (.clrlsb rd rs1) s rd (s.readB rs1 &&& (s.readB rs1 - 1)) ∧
    (s.readB rs1 = 0 → Completes (.clrlsb rd rs1) s rd 0) ∧
    (s.readB rs1 ≠ 0 → memberCount (s.readB rs1 &&& (s.readB rs1 - 1)) + 1 = memberCount (s.readB rs1))

/-- R184: the protocol of R183 yields the members in increasing order and then 64. -/
def Obligations.IterationYieldsTheSquaresInOrder : Prop :=
  (∀ v : Word, (squaresOf v).length = memberCount v ∧ (squaresOf v).Pairwise (· < ·) ∧
    ∀ q, q ∈ squaresOf v ↔ q < 64 ∧ v.getLsbD q = true) ∧
  (∀ q, q < 64 → squaresOf (squareMask q) = [q]) ∧ squaresOf 0x8000000000000201 = [0, 9, 63] ∧
  ∀ (s : State) (c i : Reg), i ≠ c → s.fault = false → Readable s [c] →
    ∃ u, iterationRounds c i (memberCount (s.readB c) + 1) s =
        some ((squaresOf (s.readB c)).map (BitVec.ofNat 64) ++ [64], u) ∧
      u.readB c = 0 ∧ u.modelFault = s.modelFault ∧ u.fault = false ∧
      ∀ r, r ≠ c → r ≠ i → u.readB r = s.readB r

/-! ### Faults -/

/-- R204: fault entry, for both causes, from the issued word on, in a run that no ReadUnwritten has ended. -/
def Obligations.FaultEntryIsPrecise : Prop :=
  ∀ (s : State) (x : HostTx) (rest : List HostTx) (w : CmdWord),
    s.modelFault = none → s.pending = x :: rest → Issues x w → s.fault = false →
    ((∀ i, decode w ≠ .ok i) → ∃ u, Entered 1 w (taken s) u ∧ step s = .next u.complete) ∧
    ∀ i, decode w = .ok i → Readable s (sourcesOf i) → outOfRange s i = true →
      ∃ u, Entered 2 w (taken s) u ∧ step s = .next u.complete

/-- R205: while FAULTED, in a run that no ReadUnwritten has ended. The last clause says only
what a next state keeps, and not that every transaction has one. -/
def Obligations.FaultedUnitRejectsCommandsAndWrites : Prop :=
  ∀ (s : State) (x : HostTx) (rest : List HostTx), s.modelFault = none → s.pending = x :: rest → s.fault = true →
    (∀ w, Issues x w → step s = .next ((taken s).reply .rejected)) ∧
    (∀ r v, HostWrites x r v → step s = .next ((taken s).reply .rejected)) ∧
    (∀ r, HostReads x r → s.isWritten r = true → step s = .next ((taken s).reply (.value (s.readB r)))) ∧
    (x = .readStatus → step s = .next ((taken s).reply (.value s.status))) ∧
    (x = .readFaultInsn → step s = .next ((taken s).reply (.value s.faultInsnWord))) ∧
    (∀ a v, x = .portWrite a v → 0x10 ≤ a.toNat → a.toNat ≠ 0x12 → step s = .next ((taken s).reply .ok)) ∧
    ∀ t, x ≠ .reset → step s = .next t → UnitKept s t

/-- R206: the only way out of FAULTED is reset. -/
def Obligations.OnlyResetLeavesFaulted : Prop :=
  ∀ s t : State, s.fault = true → step s = .next t → t.fault = false → ∃ rest, s.pending = .reset :: rest

/-- R26, R27, R201, R204: every step keeps the fault record coherent. -/
def Obligations.EveryStepKeepsTheFaultRecord : Prop :=
  ∀ s t : State, FaultRecord s → step s = .next t → FaultRecord t

/-- R231: the fault record is coherent at reset. -/
def Obligations.ResetHasACoherentFaultRecord : Prop := FaultRecord State.reset ∧ RunIsGood State.reset

/-- R26 and R27: the layout of STATUS and FAULT_INSN, when they are 0, and who writes them. -/
def Obligations.StatusAndFaultInsnRegisters : Prop :=
  (∀ s : State, (s.status.getLsbD 0 = s.fault) ∧ (∀ k, 1 ≤ k → k ≤ 7 → s.status.getLsbD k = false) ∧
    s.status.extractLsb' 8 8 = s.cause ∧ (∀ k, 16 ≤ k → s.status.getLsbD k = false) ∧
    s.faultInsnWord.setWidth 32 = s.faultInsn ∧ (∀ k, 32 ≤ k → s.faultInsnWord.getLsbD k = false) ∧
    s.faultOut = s.status.getLsbD 0) ∧
  (∀ s : State, FaultRecord s → (s.cause = 0 ∨ s.cause = 1 ∨ s.cause = 2) ∧
    (s.status.getLsbD 0 = false → s.status = 0 ∧ s.faultInsnWord = 0)) ∧
  (State.reset.status = 0 ∧ State.reset.faultInsnWord = 0) ∧
  ∀ (s t : State) (x : HostTx) (rest : List HostTx), s.pending = x :: rest → step s = .next t →
    (x = .readStatus ∨ x = .portRead 0x10 → UnitKept s t ∧ t.answers = s.answers ++ [.value s.status]) ∧
    (x = .readFaultInsn ∨ x = .portRead 0x11 → UnitKept s t ∧ t.answers = s.answers ++ [.value s.faultInsnWord]) ∧
    (∀ v, x = .portWrite 0x10 v ∨ x = .portWrite 0x11 v → UnitKept s t) ∧
    ((t.status ≠ s.status ∨ t.faultInsnWord ≠ s.faultInsnWord) →
      x = .reset ∨ (s.fault = false ∧ t.fault = true ∧ ∃ w, Issues x w ∧ t.faultInsn = w))

/-! ### Host transactions -/

/-- R230: the Reset transaction, in a run that no ReadUnwritten has ended. What the registers hold after it is left open
(log 5), so nothing is said of it. -/
def Obligations.ResetTransactionClearsTheUnit : Prop :=
  ∀ (s : State) (rest : List HostTx), s.modelFault = none → s.pending = .reset :: rest →
    ∃ t, step s = .next t ∧ t.fault = false ∧ t.cause = 0 ∧ t.faultInsn = 0 ∧ t.faultOut = false ∧
      (∀ r, t.isWritten r = false) ∧ t.pending = rest ∧ t.answers = s.answers ++ [.ok]

/-- R231: the state after reset. Its empty host lists and its position 0 are the model's choice (logs 1, 2 and 6). -/
def Obligations.StateAfterReset : Prop :=
  State.reset.fault = false ∧ State.reset.cause = 0 ∧ State.reset.status = 0 ∧ State.reset.faultInsn = 0 ∧
  State.reset.faultOut = false ∧ (∀ r, State.reset.isWritten r = false) ∧ State.reset.position = 0 ∧
  step State.reset = .next State.reset

/-- R234: every transaction's effect and answer, in a run that no ReadUnwritten has ended. Of Reset it says what R230 writes
and no more: not what the registers then hold (log 5), nor the position (log 6). Of a legal command it speaks where the
sources are written; what an unwritten source does is in `OutcomesAreTakenInPriorityOrder` (log 4). -/
def Obligations.TransactionsHaveTheirEffectAndAnswer : Prop :=
  ∀ (s : State) (x : HostTx) (rest : List HostTx), s.modelFault = none → s.pending = x :: rest →
    (x = .reset → ∃ t, step s = .next t ∧ t.fault = false ∧ t.cause = 0 ∧ t.faultInsn = 0 ∧
      (∀ r, t.isWritten r = false) ∧ t.pending = rest ∧ t.answers = s.answers ++ [.ok]) ∧
    (∀ w, x = .issue w → s.fault = true → step s = .next ((taken s).reply .rejected)) ∧
    (∀ w i, x = .issue w → s.fault = false → decode w = .ok i → Readable s (sourcesOf i) →
      step s = onNext State.complete (exec i (taken s))) ∧
    (∀ w, x = .issue w → s.fault = false → (∀ i, decode w ≠ .ok i) →
      ∃ u, Entered 1 w (taken s) u ∧ step s = .next u.complete) ∧
    (∀ r v, x = .writeReg r v → s.fault = false → ∃ u, Wrote r v (taken s) u ∧ step s = .next (u.reply .ok)) ∧
    (∀ r v, x = .writeReg r v → s.fault = true → step s = .next ((taken s).reply .rejected)) ∧
    (∀ r, x = .readReg r → s.isWritten r = true → step s = .next ((taken s).reply (.value (s.readB r)))) ∧
    (x = .readStatus → step s = .next ((taken s).reply (.value s.status))) ∧
    (x = .readFaultInsn → step s = .next ((taken s).reply (.value s.faultInsnWord)))

/-- R29: the address map, read and written. -/
def Obligations.PortAddressesNameTheirRegisters : Prop :=
  ∀ (s : State) (a : BitVec 8) (v : Word),
    (∀ r : Reg, a.toNat = r.val → transact (.portRead a) s = transact (.readReg r) s ∧
      transact (.portWrite a v) s = transact (.writeReg r v) s) ∧
    (a = 0x10 → transact (.portRead a) s = transact .readStatus s ∧ transact (.portWrite a v) s = .next (s.reply .ok)) ∧
    (a = 0x11 → transact (.portRead a) s = transact .readFaultInsn s ∧
      transact (.portWrite a v) s = .next (s.reply .ok)) ∧
    (a = 0x12 → transact (.portRead a) s = .next (s.reply (.value 0)) ∧
      transact (.portWrite a v) s = transact (.issue (v.setWidth 32)) s) ∧
    (0x13 ≤ a.toNat → transact (.portRead a) s = .next (s.reply (.value 0)) ∧
      transact (.portWrite a v) s = .next (s.reply .ok))

/-- R28: a CMD write issues the low 32 bits, and a CMD read (in a run that no ReadUnwritten has ended) gives 0 and has no
effect. -/
def Obligations.CmdPortIssuesTheLowWord : Prop :=
  ∀ (s : State) (rest : List HostTx) (v : Word),
    (s.pending = .portWrite 0x12 v :: rest →
      step s = step { s with pending := .issue (v.setWidth 32) :: rest }) ∧
    (∀ u : Word, u.setWidth 32 = v.setWidth 32 → s.pending = .portWrite 0x12 v :: rest →
      step s = step { s with pending := .portWrite 0x12 u :: rest }) ∧
    (s.modelFault = none → s.pending = .portRead 0x12 :: rest → step s = .next ((taken s).reply (.value 0)))

/-- R47: reads leave the unit as it is and give the same answer again (a read of an unwritten register gives none: it ends
the run, R22, and still leaves the unit as it is); writes to read-only and unmapped addresses have no
effect; a CMD write issues a command. -/
def Obligations.HostReadsHaveNoSideEffect : Prop :=
  (∀ (s t u : State) (x : HostTx), isHostRead x = true → transact x s = .next t → transact x t = .next u →
    UnitKept s t ∧ UnitKept t u ∧ t.pending = s.pending ∧ t.position = s.position ∧
      ((∀ r, HostReads x r → s.isWritten r = true) →
        ∃ v, t.answers = s.answers ++ [.value v] ∧ u.answers = t.answers ++ [.value v])) ∧
  (∀ (s : State) (a : BitVec 8) (v : Word), 0x10 ≤ a.toNat → a.toNat ≠ 0x12 →
    transact (.portWrite a v) s = .next (s.reply .ok)) ∧
  ∀ (s : State) (v : Word), transact (.portWrite 0x12 v) s = transact (.issue (v.setWidth 32)) s

/-- R21: a register holds its value until an instruction, a host write or a reset writes it. -/
def Obligations.RegistersChangeOnlyWhenWritten : Prop :=
  ∀ (s t : State) (r : Reg), step s = .next t → t.readB r ≠ s.readB r →
    ∃ x rest, s.pending = x :: rest ∧
      (x = .reset ∨
       (s.fault = false ∧ t.isWritten r = true ∧ ∃ v, HostWrites x r v ∧ t.readB r = v) ∨
       (s.fault = false ∧ t.isWritten r = true ∧ ∃ w i, Issues x w ∧ decode w = .ok i ∧ destOf i = r))

/-- R24: the position rises by one for every command that completes, faulted or not, and otherwise stays; that a rejected
command, and one that a ReadUnwritten ended, does not complete is the model's reading (logs 6 and 4). -/
def Obligations.PositionCountsCompletedCommands : Prop :=
  ∀ (s t : State) (x : HostTx) (rest : List HostTx), s.pending = x :: rest → step s = .next t →
    ((∃ w, Issues x w) → s.fault = false → t.modelFault = none → t.position = s.position + 1) ∧
    (((∀ w, ¬ Issues x w) ∨ s.fault = true ∨ t.modelFault ≠ none) → t.position = s.position)

/-! ### The model fault and unwritten registers -/

/-- R22 (the written bits) and log 4 (the form a run's end has in this model): Reset alone clears a written bit; a host read
of a written register is answered, and one of an unwritten register leaves nothing but the record of its ReadUnwritten, with
no answer; a run with a record has ended. -/
def Obligations.WrittenBitsAndTheModelFaultRecord : Prop :=
  (∀ (s t : State) (r : Reg), step s = .next t → s.isWritten r = true → t.isWritten r = false →
    ∃ rest, s.pending = .reset :: rest) ∧
  (∀ (s : State) (x : HostTx) (rest : List HostTx) (r : Reg),
    s.modelFault = none → s.pending = x :: rest → HostReads x r →
    (s.isWritten r = true → step s = .next ((taken s).reply (.value (s.readB r)))) ∧
    (s.isWritten r = false → ∃ t, step s = .next t ∧ t.modelFault = some (.readUnwritten r) ∧ UnitKept s t ∧
      t.answers = s.answers ∧ step t = .fault (.readUnwritten r))) ∧
  ∀ (s : State) (f : Fault), s.modelFault = some f → step s = .fault f

/-- Logs 3 and 4: what unwritten registers hold changes nothing that a run can show, so no claim about what it shows rests on
the model's reset values. -/
def Obligations.UnwrittenValuesNeverShow : Prop :=
  ∀ s s' t : State, SameButUnwritten s s' → step s = .next t → ∃ t', step s' = .next t' ∧ SameButUnwritten t t'

/-! ### Notation, geometry, bytes, assembler -/

/-- R12: the named masks. -/
def Obligations.NamedMasksHaveTheirValues : Prop :=
  emptyBoard = 0x0000000000000000 ∧ fullBoard = 0xFFFFFFFFFFFFFFFF ∧
  fileMask 0 = 0x0101010101010101 ∧ fileMask 7 = 0x8080808080808080 ∧ (∀ f, fileMask f = fileMask 0 <<< f) ∧
  rankMask 0 = 0x00000000000000FF ∧ rankMask 7 = 0xFF00000000000000 ∧ (∀ r, rankMask r = rankMask 0 <<< (8 * r)) ∧
  notA = ~~~(fileMask 0) ∧ notA = 0xFEFEFEFEFEFEFEFE ∧ notH = ~~~(fileMask 7) ∧ notH = 0x7F7F7F7F7F7F7F7F ∧
  ∀ n, n ≤ 8 → ∀ q,
    ((westFiles n).getLsbD q = true ↔ ∃ f, f < n ∧ (fileMask f).getLsbD q = true) ∧
    ((eastFiles n).getLsbD q = true ↔ ∃ f, 8 - n ≤ f ∧ f ≤ 7 ∧ (fileMask f).getLsbD q = true)

/-- R8: the shift primitives as arithmetic on the unsigned values. -/
def Obligations.ShiftPrimitivesAreArithmetic : Prop :=
  ∀ (v : Word) (n : Nat),
    (n < 64 → (shl v n).toNat = v.toNat * 2 ^ n % 2 ^ 64 ∧ (shr v n).toNat = v.toNat / 2 ^ n) ∧
    (64 ≤ n → shl v n = 0 ∧ shr v n = 0)

/-- R9 and R11: a step from a board square lands on the square of the new file and rank, at the direction's offset, and has
no target where file or rank leaves 0..7. -/
def Obligations.NeighboursFollowFileAndRank : Prop :=
  (∀ (d : Dir) (o q : Nat), o < 64 → neighbour d o = some q →
    q < 64 ∧ (q : Int) = o + dirOffset d ∧ (fileOf q : Int) = fileOf o + dirFile d ∧
      (rankOf q : Int) = rankOf o + dirRank d) ∧
  (∀ (d : Dir) (o : Nat), o < 64 → (neighbour d o = none ↔
    (fileOf o : Int) + dirFile d < 0 ∨ 7 < (fileOf o : Int) + dirFile d ∨
    (rankOf o : Int) + dirRank d < 0 ∨ 7 < (rankOf o : Int) + dirRank d)) ∧
  ∀ o, squareAt (fileOf o) (rankOf o) = o

/-- R42, R44: byte k of a word is rank k+1, little-endian is the default order, and no order loses a bit (`big` is the
model's other order, log 9). -/
def Obligations.BytesOfAWordAreItsRanks : Prop :=
  Config.hostByteOrder = .little ∧
  ∀ v : Word, (∀ k f, k < 8 → f < 8 → (byteOf v k).getLsbD f = v.getLsbD (8 * k + f)) ∧
    (∀ k, k < 8 → (busBytes .little v)[k]? = some (byteOf v k)) ∧
    ∀ o : ByteOrder, wordOfBus o (busBytes o v) = v

/-- R70: what each pseudo-instruction does. -/
def Obligations.PseudoInstructionsDoWhatTheyName : Prop :=
  ∀ (s : State) (rd rs : Reg) (n : Nat), s.fault = false → Readable s [rd, rs] → n ≤ 64 →
    Completes (expand (.mov rd rs)) s rd (s.readB rs) ∧
    Completes (expand (.clr rd)) s rd 0 ∧
    Completes (expand (.full rd)) s rd 0xFFFFFFFFFFFFFFFF ∧
    Completes (expand (.anda rd rs)) s rd (s.readB rd &&& s.readB rs) ∧
    Completes (expand (.ora rd rs)) s rd (s.readB rd ||| s.readB rs) ∧
    Completes (expand (.xora rd rs)) s rd (s.readB rd ^^^ s.readB rs) ∧
    Completes (expand (.nota rd)) s rd (~~~(s.readB rd)) ∧
    Completes (expand (.shla rd n)) s rd (s.readB rd <<< n) ∧
    Completes (expand (.shra rd n)) s rd (s.readB rd >>> n) ∧
    ∀ d : Dir, Completes (expand (.step d rd rs)) s rd (stepDir d (s.readB rs))

/-- R69: the rule's five example lines assemble to the words it gives (sanity). -/
def Obligations.ExampleLinesAssemble : Prop :=
  (assemble "and b1, b2, b3".toList).map encode = some 0x01123000 ∧
  (assemble "not b4, b4".toList).map encode = some 0x04440000 ∧
  (assemble "sh.e b1, b2, 3".toList).map encode = some 0x22120003 ∧
  (assemble "containsi b5, b2, 35".toList).map encode = some 0x12520023 ∧
  (assemble "sq b0, 3".toList).map encode = some 0x08000003
end

