-- ==== Sys2Proof/Laws/Board.lean ====
section
/-! SUPPORT. The squares of a shifted set, one lemma per shift primitive (R8, R150). -/

namespace Sys2Proof.Machine

theorem shl_getLsbD (v : Word) (n q : Nat) :
    (shl v n).getLsbD q = (decide (q < 64) && !decide (q < n) && v.getLsbD (q - n)) := by
  simp [shl, BitVec.getLsbD_shiftLeft]

theorem shr_getLsbD (v : Word) (n q : Nat) : (shr v n).getLsbD q = v.getLsbD (q + n) := by
  simp [shr, BitVec.getLsbD_ushiftRight, Nat.add_comm]

theorem rsh_of_nonneg (v : Word) {k : Int} (h : 0 ≤ k) : rsh v k = shl v k.toNat := by simp [rsh, h]

theorem rsh_of_neg (v : Word) {k : Int} (h : k < 0) : rsh v k = shr v (-k).toNat := by
  simp [rsh, Int.not_le.mpr h]

/-- Every fill round only adds squares (R153 (c) rests on it). -/
theorem fillGrow_keeps {g : Word} {q : Nat} (k : Int) (p : Word) (h : g.getLsbD q = true) :
    (fillGrow k g p).getLsbD q = true := by simp [fillGrow, h]

end Sys2Proof.Machine
end

