-- ==== Sys2Proof/Laws/Encoding.lean ====
section
/-! SUPPORT. The fields of a command word built from its fields, and every word as one built so (R60). -/

namespace Sys2Proof

theorem cmdWord_toNat {op imm : Nat} (ho : op < 256) (hi : imm < 4096) (rd rs1 rs2 : Reg) :
    (cmdWord op rd rs1 rs2 imm).toNat = op * 2 ^ 24 + rd.val * 2 ^ 20 + rs1.val * 2 ^ 16 + rs2.val * 2 ^ 12 + imm := by
  have h1 := rd.isLt
  have h2 := rs1.isLt
  have h3 := rs2.isLt
  rw [cmdWord, BitVec.toNat_ofNat]
  omega

theorem opField_cmdWord {op imm : Nat} (ho : op < 256) (hi : imm < 4096) (rd rs1 rs2 : Reg) :
    opField (cmdWord op rd rs1 rs2 imm) = op := by
  have h1 := rd.isLt
  have h2 := rs1.isLt
  have h3 := rs2.isLt
  rw [opField, bits, cmdWord_toNat ho hi]
  omega

theorem rdField_cmdWord {op imm : Nat} (ho : op < 256) (hi : imm < 4096) (rd rs1 rs2 : Reg) :
    rdField (cmdWord op rd rs1 rs2 imm) = rd := by
  have h1 := rd.isLt
  have h2 := rs1.isLt
  have h3 := rs2.isLt
  apply Fin.ext
  rw [rdField, bits, cmdWord_toNat ho hi, regOf, Fin.val_ofNat]
  omega

theorem rs1Field_cmdWord {op imm : Nat} (ho : op < 256) (hi : imm < 4096) (rd rs1 rs2 : Reg) :
    rs1Field (cmdWord op rd rs1 rs2 imm) = rs1 := by
  have h1 := rd.isLt
  have h2 := rs1.isLt
  have h3 := rs2.isLt
  apply Fin.ext
  rw [rs1Field, bits, cmdWord_toNat ho hi, regOf, Fin.val_ofNat]
  omega

theorem rs2Field_cmdWord {op imm : Nat} (ho : op < 256) (hi : imm < 4096) (rd rs1 rs2 : Reg) :
    rs2Field (cmdWord op rd rs1 rs2 imm) = rs2 := by
  have h1 := rd.isLt
  have h2 := rs1.isLt
  have h3 := rs2.isLt
  apply Fin.ext
  rw [rs2Field, bits, cmdWord_toNat ho hi, regOf, Fin.val_ofNat]
  omega

/-- The low part of IMM up to bit `hi`. -/
theorem immBits_cmdWord {op imm hi : Nat} (ho : op < 256) (hm : imm < 4096) (hh : hi ≤ 11) (rd rs1 rs2 : Reg) :
    bits (cmdWord op rd rs1 rs2 imm) hi 0 = imm % 2 ^ (hi + 1) := by
  have h1 := rd.isLt
  have h2 := rs1.isLt
  have h3 := rs2.isLt
  rw [bits, cmdWord_toNat ho hm]
  interval_cases hi <;> omega

/-- The RS2 bits as a number, which formats other than R ask to be 0 (R61). -/
theorem rs2Bits_cmdWord {op imm : Nat} (ho : op < 256) (hi : imm < 4096) (rd rs1 rs2 : Reg) :
    bits (cmdWord op rd rs1 rs2 imm) 15 12 = rs2.val := by
  have h1 := rd.isLt
  have h2 := rs1.isLt
  have h3 := rs2.isLt
  rw [bits, cmdWord_toNat ho hi]
  omega

/-- The RS1 bits as a number, which the constructors' formats ask to be 0 (R61). -/
theorem rs1Bits_cmdWord {op imm : Nat} (ho : op < 256) (hi : imm < 4096) (rd rs1 rs2 : Reg) :
    bits (cmdWord op rd rs1 rs2 imm) 19 16 = rs1.val := by
  have h1 := rd.isLt
  have h2 := rs1.isLt
  have h3 := rs2.isLt
  rw [bits, cmdWord_toNat ho hi]
  omega

/-- The part of IMM from bit `lo` up. -/
theorem immHigh_cmdWord {op imm lo : Nat} (ho : op < 256) (hm : imm < 4096) (hl : lo ≤ 11) (rd rs1 rs2 : Reg) :
    bits (cmdWord op rd rs1 rs2 imm) 11 lo = imm / 2 ^ lo := by
  have h1 := rd.isLt
  have h2 := rs1.isLt
  have h3 := rs2.isLt
  rw [bits, cmdWord_toNat ho hm]
  interval_cases lo <;> omega

/-- Every word is the word of its fields. -/
theorem cmdWord_fields (w : CmdWord) :
    cmdWord (opField w) (rdField w) (rs1Field w) (rs2Field w) (bits w 11 0) = w := by
  apply BitVec.eq_of_toNat_eq
  have hw : w.toNat < 2 ^ 32 := w.isLt
  have ho : opField w < 256 := by rw [opField, bits]; omega
  have hi : bits w 11 0 < 4096 := by rw [bits]; omega
  rw [cmdWord_toNat ho hi]
  simp only [opField, rdField, rs1Field, rs2Field, bits, regOf, Fin.val_ofNat]
  omega

end Sys2Proof
end

