-- ==== Sys2Proof/Laws/State.lean ====
section
/-! SUPPORT. The state's small lemmas: one per field per update, and reading a register after an update. -/

namespace Sys2Proof.Machine

@[simp] theorem State.writeB_b (s : State) (r : Reg) (v : Word) : (s.writeB r v).b = s.b.set r v := rfl

@[simp] theorem State.writeB_written (s : State) (r : Reg) (v : Word) : (s.writeB r v).written = s.written.set r true := rfl

@[simp] theorem State.writeB_fault (s : State) (r : Reg) (v : Word) : (s.writeB r v).fault = s.fault := rfl

@[simp] theorem State.writeB_cause (s : State) (r : Reg) (v : Word) : (s.writeB r v).cause = s.cause := rfl

@[simp] theorem State.writeB_faultInsn (s : State) (r : Reg) (v : Word) : (s.writeB r v).faultInsn = s.faultInsn := rfl

@[simp] theorem State.writeB_modelFault (s : State) (r : Reg) (v : Word) : (s.writeB r v).modelFault = s.modelFault := rfl

@[simp] theorem State.writeB_position (s : State) (r : Reg) (v : Word) : (s.writeB r v).position = s.position := rfl

@[simp] theorem State.writeB_pending (s : State) (r : Reg) (v : Word) : (s.writeB r v).pending = s.pending := rfl

@[simp] theorem State.writeB_answers (s : State) (r : Reg) (v : Word) : (s.writeB r v).answers = s.answers := rfl

@[simp] theorem State.writeB_freeCount (s : State) (r : Reg) (v : Word) : (s.writeB r v).freeCount = s.freeCount := rfl

@[simp] theorem State.endRun_b (s : State) (r : Reg) : (s.endRun r).b = s.b := rfl

@[simp] theorem State.endRun_written (s : State) (r : Reg) : (s.endRun r).written = s.written := rfl

@[simp] theorem State.endRun_fault (s : State) (r : Reg) : (s.endRun r).fault = s.fault := rfl

@[simp] theorem State.endRun_cause (s : State) (r : Reg) : (s.endRun r).cause = s.cause := rfl

@[simp] theorem State.endRun_faultInsn (s : State) (r : Reg) : (s.endRun r).faultInsn = s.faultInsn := rfl

@[simp] theorem State.endRun_position (s : State) (r : Reg) : (s.endRun r).position = s.position := rfl

@[simp] theorem State.endRun_pending (s : State) (r : Reg) : (s.endRun r).pending = s.pending := rfl

@[simp] theorem State.endRun_answers (s : State) (r : Reg) : (s.endRun r).answers = s.answers := rfl

@[simp] theorem State.endRun_freeCount (s : State) (r : Reg) : (s.endRun r).freeCount = s.freeCount := rfl

@[simp] theorem State.endRun_modelFault (s : State) (r : Reg) : (s.endRun r).modelFault = some (.readUnwritten r) := rfl

@[simp] theorem State.endRun_readB (s : State) (r : Reg) (q : Reg) : (s.endRun r).readB q = s.readB q := rfl

@[simp] theorem State.endRun_isWritten (s : State) (r : Reg) (q : Reg) : (s.endRun r).isWritten q = s.isWritten q := rfl

@[simp] theorem State.enterFault_b (s : State) (c : BitVec 8) (w : CmdWord) : (s.enterFault c w).b = s.b := rfl

@[simp] theorem State.enterFault_written (s : State) (c : BitVec 8) (w : CmdWord) : (s.enterFault c w).written = s.written := rfl

@[simp] theorem State.enterFault_fault (s : State) (c : BitVec 8) (w : CmdWord) : (s.enterFault c w).fault = true := rfl

@[simp] theorem State.enterFault_cause (s : State) (c : BitVec 8) (w : CmdWord) : (s.enterFault c w).cause = c := rfl

@[simp] theorem State.enterFault_faultInsn (s : State) (c : BitVec 8) (w : CmdWord) : (s.enterFault c w).faultInsn = w := rfl

@[simp] theorem State.enterFault_modelFault (s : State) (c : BitVec 8) (w : CmdWord) : (s.enterFault c w).modelFault = s.modelFault := rfl

@[simp] theorem State.enterFault_position (s : State) (c : BitVec 8) (w : CmdWord) : (s.enterFault c w).position = s.position := rfl

@[simp] theorem State.enterFault_pending (s : State) (c : BitVec 8) (w : CmdWord) : (s.enterFault c w).pending = s.pending := rfl

@[simp] theorem State.enterFault_answers (s : State) (c : BitVec 8) (w : CmdWord) : (s.enterFault c w).answers = s.answers := rfl

@[simp] theorem State.enterFault_freeCount (s : State) (c : BitVec 8) (w : CmdWord) : (s.enterFault c w).freeCount = s.freeCount := rfl

@[simp] theorem State.enterFault_readB (s : State) (c : BitVec 8) (w : CmdWord) (q : Reg) : (s.enterFault c w).readB q = s.readB q := rfl

@[simp] theorem State.enterFault_isWritten (s : State) (c : BitVec 8) (w : CmdWord) (q : Reg) : (s.enterFault c w).isWritten q = s.isWritten q := rfl

@[simp] theorem State.applyReset_b (s : State) : (s.applyReset).b = unspecifiedBoards s.freeCount := rfl

@[simp] theorem State.applyReset_written (s : State) : (s.applyReset).written = Vector.replicate 16 false := rfl

@[simp] theorem State.applyReset_fault (s : State) : (s.applyReset).fault = false := rfl

@[simp] theorem State.applyReset_cause (s : State) : (s.applyReset).cause = 0 := rfl

@[simp] theorem State.applyReset_faultInsn (s : State) : (s.applyReset).faultInsn = 0 := rfl

@[simp] theorem State.applyReset_modelFault (s : State) : (s.applyReset).modelFault = s.modelFault := rfl

@[simp] theorem State.applyReset_position (s : State) : (s.applyReset).position = s.position := rfl

@[simp] theorem State.applyReset_pending (s : State) : (s.applyReset).pending = s.pending := rfl

@[simp] theorem State.applyReset_answers (s : State) : (s.applyReset).answers = s.answers := rfl

@[simp] theorem State.applyReset_freeCount (s : State) : (s.applyReset).freeCount = s.freeCount + 16 := rfl

@[simp] theorem State.reply_b (s : State) (a : Answer) : (s.reply a).b = s.b := rfl

@[simp] theorem State.reply_written (s : State) (a : Answer) : (s.reply a).written = s.written := rfl

@[simp] theorem State.reply_fault (s : State) (a : Answer) : (s.reply a).fault = s.fault := rfl

@[simp] theorem State.reply_cause (s : State) (a : Answer) : (s.reply a).cause = s.cause := rfl

@[simp] theorem State.reply_faultInsn (s : State) (a : Answer) : (s.reply a).faultInsn = s.faultInsn := rfl

@[simp] theorem State.reply_modelFault (s : State) (a : Answer) : (s.reply a).modelFault = s.modelFault := rfl

@[simp] theorem State.reply_position (s : State) (a : Answer) : (s.reply a).position = s.position := rfl

@[simp] theorem State.reply_pending (s : State) (a : Answer) : (s.reply a).pending = s.pending := rfl

@[simp] theorem State.reply_answers (s : State) (a : Answer) : (s.reply a).answers = s.answers ++ [a] := rfl

@[simp] theorem State.reply_freeCount (s : State) (a : Answer) : (s.reply a).freeCount = s.freeCount := rfl

@[simp] theorem State.reply_readB (s : State) (a : Answer) (q : Reg) : (s.reply a).readB q = s.readB q := rfl

@[simp] theorem State.reply_isWritten (s : State) (a : Answer) (q : Reg) : (s.reply a).isWritten q = s.isWritten q := rfl

@[simp] theorem State.complete_b (s : State) : (s.complete).b = s.b := rfl

@[simp] theorem State.complete_written (s : State) : (s.complete).written = s.written := rfl

@[simp] theorem State.complete_fault (s : State) : (s.complete).fault = s.fault := rfl

@[simp] theorem State.complete_cause (s : State) : (s.complete).cause = s.cause := rfl

@[simp] theorem State.complete_faultInsn (s : State) : (s.complete).faultInsn = s.faultInsn := rfl

@[simp] theorem State.complete_modelFault (s : State) : (s.complete).modelFault = s.modelFault := rfl

@[simp] theorem State.complete_position (s : State) : (s.complete).position = s.position + 1 := rfl

@[simp] theorem State.complete_pending (s : State) : (s.complete).pending = s.pending := rfl

@[simp] theorem State.complete_answers (s : State) : (s.complete).answers = s.answers ++ [.ok] := rfl

@[simp] theorem State.complete_freeCount (s : State) : (s.complete).freeCount = s.freeCount := rfl

@[simp] theorem State.complete_readB (s : State) (q : Reg) : (s.complete).readB q = s.readB q := rfl

@[simp] theorem State.complete_isWritten (s : State) (q : Reg) : (s.complete).isWritten q = s.isWritten q := rfl

@[simp] theorem taken_b (s : State) : (taken s).b = s.b := rfl

@[simp] theorem taken_written (s : State) : (taken s).written = s.written := rfl

@[simp] theorem taken_fault (s : State) : (taken s).fault = s.fault := rfl

@[simp] theorem taken_cause (s : State) : (taken s).cause = s.cause := rfl

@[simp] theorem taken_faultInsn (s : State) : (taken s).faultInsn = s.faultInsn := rfl

@[simp] theorem taken_modelFault (s : State) : (taken s).modelFault = s.modelFault := rfl

@[simp] theorem taken_position (s : State) : (taken s).position = s.position := rfl

@[simp] theorem taken_pending (s : State) : (taken s).pending = s.pending.tail := rfl

@[simp] theorem taken_answers (s : State) : (taken s).answers = s.answers := rfl

@[simp] theorem taken_freeCount (s : State) : (taken s).freeCount = s.freeCount := rfl

@[simp] theorem taken_readB (s : State) (q : Reg) : (taken s).readB q = s.readB q := rfl

@[simp] theorem taken_isWritten (s : State) (q : Reg) : (taken s).isWritten q = s.isWritten q := rfl

@[simp] theorem State.applyReset_isWritten (s : State) (q : Reg) : s.applyReset.isWritten q = false := by
  simp [State.isWritten]

@[simp] theorem State.applyReset_readB (s : State) (q : Reg) :
    s.applyReset.readB q = Config.freeBoard (s.freeCount + q.val) := by
  simp [State.readB, unspecifiedBoards]

@[simp] theorem State.writeB_readB_self (s : State) (r : Reg) (v : Word) : (s.writeB r v).readB r = v := by
  simp [State.readB]

@[simp] theorem State.writeB_isWritten_self (s : State) (r : Reg) (v : Word) : (s.writeB r v).isWritten r = true := by
  simp [State.isWritten]

theorem State.writeB_readB_ne (s : State) {r q : Reg} (v : Word) (h : q ≠ r) : (s.writeB r v).readB q = s.readB q := by
  have : r.val ≠ q.val := fun e => h (Fin.ext e.symm)
  simp [State.readB, Vector.getElem_set_ne, this]

theorem State.writeB_isWritten_ne (s : State) {r q : Reg} (v : Word) (h : q ≠ r) :
    (s.writeB r v).isWritten q = s.isWritten q := by
  have : r.val ≠ q.val := fun e => h (Fin.ext e.symm)
  simp [State.isWritten, Vector.getElem_set_ne, this]

/-- A command that was executed in a run that goes on completes. -/
@[simp] theorem State.finish_of_none {s : State} (h : s.modelFault = none) : s.finish = s.complete := by
  simp [State.finish, h]

/-- A command that a ReadUnwritten ended does not complete. -/
@[simp] theorem State.finish_of_some {s : State} {f : Fault} (h : s.modelFault = some f) : s.finish = s := by
  simp [State.finish, h]

/-- The state is its fields: two states that agree on every field are equal. -/
theorem State.eq_of_fields {s t : State} (hb : t.b = s.b) (hw : t.written = s.written) (hm : t.modelFault = s.modelFault)
    (hr : RestKept s t) : t = s := by
  obtain ⟨h1, h2, h3, h4, h5, h6, h7⟩ := hr
  cases s
  cases t
  simp_all

end Sys2Proof.Machine
end

