-- ==== Sys2Proof/Laws/Ops.lean ====
section
/-! SUPPORT. One lemma per shared operation saying what it does: the execution forms of R100, fault entry, the next
transaction, and what an issued word does. -/

namespace Sys2Proof.Machine

theorem RestKept.refl (s : State) : RestKept s s := ⟨rfl, rfl, rfl, rfl, rfl, rfl, rfl⟩

theorem BoardsKept.refl (s : State) : BoardsKept s s := fun _ => ⟨rfl, rfl⟩

theorem UnitKept.refl (s : State) : UnitKept s s := ⟨rfl, rfl, rfl, rfl, rfl⟩

theorem wrote_writeB (s : State) (rd : Reg) (v : Word) : Wrote rd v s (s.writeB rd v) :=
  ⟨by simp, by simp, fun _ h => ⟨s.writeB_readB_ne v h, s.writeB_isWritten_ne v h⟩, rfl,
    ⟨rfl, rfl, rfl, rfl, rfl, rfl, rfl⟩⟩

theorem entered_enterFault (s : State) (c : BitVec 8) (w : CmdWord) : Entered c w s (s.enterFault c w) :=
  ⟨rfl, rfl, rfl, fun _ => ⟨rfl, rfl⟩, rfl, rfl, rfl, rfl, rfl⟩

/-- What the end of a run leaves alone. -/
theorem endRun_kept (s : State) (r : Reg) : BoardsKept s (s.endRun r) ∧ RestKept s (s.endRun r) ∧ UnitKept s (s.endRun r) :=
  ⟨fun _ => ⟨rfl, rfl⟩, ⟨rfl, rfl, rfl, rfl, rfl, rfl, rfl⟩, ⟨rfl, rfl, rfl, rfl, rfl⟩⟩

/-- All sources are written exactly if none is the first unwritten one. -/
theorem firstUnwritten_eq_none {s : State} {rs : List Reg} : firstUnwritten s rs = none ↔ Readable s rs := by
  simp [firstUnwritten, Readable]

/-- The first unwritten source is one of the sources, and is unwritten. -/
theorem firstUnwritten_eq_some {s : State} {rs : List Reg} {r : Reg} (h : firstUnwritten s rs = some r) :
    r ∈ rs ∧ s.isWritten r = false :=
  ⟨List.mem_of_find?_eq_some h, by simpa using List.find?_some h⟩

/-- With written sources the reads change nothing. -/
theorem afterReads_of_readable {s : State} {rs : List Reg} (h : Readable s rs) (k : Result) : afterReads rs s k = k := by
  simp [afterReads, firstUnwritten_eq_none.mpr h]

/-- With an unwritten source the run ends, whatever would have come after the reads. -/
theorem afterReads_of_unwritten {s : State} {rs : List Reg} {r : Reg} (h : firstUnwritten s rs = some r) (k : Result) :
    afterReads rs s k = .next (s.endRun r) := by
  simp [afterReads, h]

theorem readable_one {s : State} {x : Reg} (hx : s.isWritten x = true) : Readable s [x] := by simpa [Readable] using hx

theorem readable_two {s : State} {x y : Reg} (hx : s.isWritten x = true) (hy : s.isWritten y = true) :
    Readable s [x, y] := by simpa [Readable] using ⟨hx, hy⟩

theorem nullary_wrote (rd : Reg) (v : Word) (s : State) : ∃ t, nullary rd v s = .next t ∧ Wrote rd v s t :=
  ⟨_, rfl, wrote_writeB s rd v⟩

theorem unary_wrote {s : State} {x : Reg} (hx : s.isWritten x = true) (rd : Reg) (f : Word → Word) :
    ∃ t, unary rd x f s = .next t ∧ Wrote rd (f (s.readB x)) s t :=
  ⟨_, by rw [unary, afterReads_of_readable (readable_one hx)], wrote_writeB s rd _⟩

theorem binary_wrote {s : State} {x y : Reg} (hx : s.isWritten x = true) (hy : s.isWritten y = true) (rd : Reg)
    (f : Word → Word → Word) :
    ∃ t, binary rd x y f s = .next t ∧ Wrote rd (f (s.readB x) (s.readB y)) s t :=
  ⟨_, by rw [binary, afterReads_of_readable (readable_two hx hy)], wrote_writeB s rd _⟩

theorem retire_some (cmd : CmdWord) (rd : Reg) (v : Word) (s : State) :
    ∃ t, retire cmd rd (some v) s = .next t ∧ Wrote rd v s t := ⟨_, rfl, wrote_writeB s rd v⟩

theorem retire_none (cmd : CmdWord) (rd : Reg) (s : State) :
    ∃ t, retire cmd rd none s = .next t ∧ Entered causeRange cmd s t := ⟨_, rfl, entered_enterFault s _ _⟩

theorem unaryRanged_of_written {s : State} {x : Reg} (hx : s.isWritten x = true) (cmd : CmdWord) (rd : Reg)
    (f : Word → Option Word) : unaryRanged cmd rd x f s = retire cmd rd (f (s.readB x)) s := by
  rw [unaryRanged, afterReads_of_readable (readable_one hx)]

theorem binaryRanged_of_written {s : State} {x y : Reg} (hx : s.isWritten x = true) (hy : s.isWritten y = true)
    (cmd : CmdWord) (rd : Reg) (f : Word → Word → Option Word) :
    binaryRanged cmd rd x y f s = retire cmd rd (f (s.readB x) (s.readB y)) s := by
  rw [binaryRanged, afterReads_of_readable (readable_two hx hy)]

theorem upTo_of_le {limit n : Nat} (h : n ≤ limit) (v : Word) : upTo limit n v = some v := by simp [upTo, h]

theorem upTo_of_lt {limit n : Nat} (h : limit < n) (v : Word) : upTo limit n v = none := by
  simp [upTo, Nat.not_le.mpr h]

theorem ifSquare_of_lt {x : Word} (h : x.toNat < 64) (f : Nat → Word) : ifSquare x f = some (f x.toNat) := by
  simp [ifSquare, h]

theorem ifSquare_of_le {x : Word} (h : 64 ≤ x.toNat) (f : Nat → Word) : ifSquare x f = none := by
  simp [ifSquare, Nat.not_lt.mpr h]

theorem upTo_isNone (limit n : Nat) (v : Word) : (upTo limit n v).isNone = decide (limit < n) := by
  unfold upTo
  split <;> simp <;> omega

theorem ifSquare_isNone (x : Word) (f : Nat → Word) : (ifSquare x f).isNone = decide (64 ≤ x.toNat) := by
  unfold ifSquare
  split <;> simp <;> omega

theorem portTarget_register {a : BitVec 8} {r : Reg} (h : a.toNat = r.val) : portTarget a = .register r := by
  have hr := r.isLt
  unfold portTarget
  rw [if_pos (by omega)]
  congr
  apply Fin.ext
  simp [regOf, h]

theorem portTarget_unmapped {a : BitVec 8} (h : 0x13 ≤ a.toNat) : portTarget a = .unmapped := by
  unfold portTarget
  rw [if_neg (by omega), if_neg (by omega), if_neg (by omega), if_neg (by omega)]

theorem hostWriteReg_accepted {s : State} (h : s.fault = false) (r : Reg) (v : Word) :
    hostWriteReg r v s = .next ((s.writeB r v).reply .ok) := by simp [hostWriteReg, h]

theorem hostWriteReg_rejected {s : State} (h : s.fault = true) (r : Reg) (v : Word) :
    hostWriteReg r v s = .next (s.reply .rejected) := by simp [hostWriteReg, h]

theorem hostReadReg_of_written {s : State} {r : Reg} (h : s.isWritten r = true) :
    hostReadReg r s = .next (s.reply (.value (s.readB r))) := afterReads_of_readable (readable_one h) _

theorem hostReadReg_of_unwritten {s : State} {r : Reg} (h : s.isWritten r = false) :
    hostReadReg r s = .next (s.endRun r) := afterReads_of_unwritten (by simp [firstUnwritten, h]) _

/-- A run that has ended goes no further. -/
theorem step_ended {s : State} {f : Fault} (h : s.modelFault = some f) : step s = .fault f := by simp [step, serve, h]

theorem step_idle {s : State} (hm : s.modelFault = none) (h : s.pending = []) : step s = .next s := by
  simp [step, serve, hm, h]

theorem step_of_pending {s : State} {x : HostTx} {rest : List HostTx} (hm : s.modelFault = none)
    (h : s.pending = x :: rest) : step s = transact x (taken s) := by simp [step, serve, taken, hm, h]

/-- A step that answers a next state was taken in a run that had not ended. -/
theorem modelFault_of_step {s t : State} (h : step s = .next t) : s.modelFault = none := by
  cases hm : s.modelFault with
  | none => rfl
  | some f => rw [step_ended hm] at h; cases h

theorem issue_rejected {s : State} (h : s.fault = true) (w : CmdWord) : issue w s = .next (s.reply .rejected) := by
  simp [issue, h]

theorem issue_illegal {s : State} {w : CmdWord} {e : Reject} (h : s.fault = false) (hd : decode w = .error e) :
    issue w s = .next (s.enterFault causeIllegal w).complete := by simp [issue, h, hd]

theorem issue_legal {s : State} {w : CmdWord} {i : Instr} (h : s.fault = false) (hd : decode w = .ok i) :
    issue w s = onNext State.finish (exec i s) := by simp [issue, h, hd]

/-- A transaction that issues `w` does what `Issue(w)` does. -/
theorem transact_of_issues {x : HostTx} {w : CmdWord} (h : Issues x w) (s : State) : transact x s = issue w s := by
  rcases h with rfl | ⟨v, rfl, rfl⟩ <;> rfl

end Sys2Proof.Machine
end

