-- ==== Sys2Proof/Laws/PerInstr.lean ====
section
/-! SUPPORT. Per-instruction statements. `Fields`: the encoding of a well-formed instruction carries its destination in RD,
its first source in RS1 and its second in RS2 (R60, R61). -/

namespace Sys2Proof.Laws

open Sys2Proof.Machine

/-- The registers of `i` stand in the fields R60 gives them. -/
def Fields.Statement (i : Instr) : Prop :=
  WellFormed i → rdField (encode i) = destOf i ∧
    (∀ r ∈ (sourcesOf i)[0]?, rs1Field (encode i) = r) ∧ (∀ r ∈ (sourcesOf i)[1]?, rs2Field (encode i) = r)

/-- A word's three register fields, at once. -/
theorem Fields.of_cmdWord {op imm : Nat} (ho : op < 256) (hi : imm < 4096) (rd rs1 rs2 : Reg) :
    rdField (cmdWord op rd rs1 rs2 imm) = rd ∧ rs1Field (cmdWord op rd rs1 rs2 imm) = rs1 ∧
      rs2Field (cmdWord op rd rs1 rs2 imm) = rs2 :=
  ⟨rdField_cmdWord ho hi rd rs1 rs2, rs1Field_cmdWord ho hi rd rs1 rs2, rs2Field_cmdWord ho hi rd rs1 rs2⟩

/-- Format R. -/
theorem Fields.three {op : Nat} (ho : op < 256) (rd rs1 rs2 : Reg) :
    rdField (cmdWord op rd rs1 rs2 0) = rd ∧ (∀ r ∈ [rs1, rs2][0]?, rs1Field (cmdWord op rd rs1 rs2 0) = r) ∧
      (∀ r ∈ [rs1, rs2][1]?, rs2Field (cmdWord op rd rs1 rs2 0) = r) := by
  obtain ⟨h1, h2, h3⟩ := Fields.of_cmdWord ho (by decide : 0 < 4096) rd rs1 rs2
  simp [h1, h2, h3]

/-- Formats U, I7 and I6. -/
theorem Fields.two {op imm : Nat} (ho : op < 256) (hi : imm < 4096) (rd rs1 : Reg) :
    rdField (cmdWord op rd rs1 0 imm) = rd ∧ (∀ r ∈ [rs1][0]?, rs1Field (cmdWord op rd rs1 0 imm) = r) ∧
      (∀ r ∈ [rs1][1]?, rs2Field (cmdWord op rd rs1 0 imm) = r) := by
  obtain ⟨h1, h2, -⟩ := Fields.of_cmdWord ho hi rd rs1 0
  simp [h1, h2]

/-- Formats C6, C4 and C3. -/
theorem Fields.one {op imm : Nat} (ho : op < 256) (hi : imm < 4096) (rd : Reg) :
    rdField (cmdWord op rd 0 0 imm) = rd ∧ (∀ r ∈ ([] : List Reg)[0]?, rs1Field (cmdWord op rd 0 0 imm) = r) ∧
      (∀ r ∈ ([] : List Reg)[1]?, rs2Field (cmdWord op rd 0 0 imm) = r) := by
  obtain ⟨h1, -, -⟩ := Fields.of_cmdWord ho hi rd 0 0
  simp [h1]

theorem Fields.and (rd rs1 rs2 : Reg) : Fields.Statement (.and rd rs1 rs2) := fun _ => Fields.three (by decide) rd rs1 rs2

theorem Fields.or (rd rs1 rs2 : Reg) : Fields.Statement (.or rd rs1 rs2) := fun _ => Fields.three (by decide) rd rs1 rs2

theorem Fields.xor (rd rs1 rs2 : Reg) : Fields.Statement (.xor rd rs1 rs2) := fun _ => Fields.three (by decide) rd rs1 rs2

theorem Fields.not (rd rs1 : Reg) : Fields.Statement (.not rd rs1) :=
  fun _ => Fields.two (by decide) (by decide) rd rs1

theorem Fields.shl (rd rs1 : Reg) (n : Nat) : Fields.Statement (.shl rd rs1 n) := fun h =>
  Fields.two (by decide) (Nat.lt_trans (of_decide_eq_true h) (by decide)) rd rs1

theorem Fields.shr (rd rs1 : Reg) (n : Nat) : Fields.Statement (.shr rd rs1 n) := fun h =>
  Fields.two (by decide) (Nat.lt_trans (of_decide_eq_true h) (by decide)) rd rs1

theorem Fields.sq (rd : Reg) (n : Nat) : Fields.Statement (.sq rd n) := fun h =>
  Fields.one (by decide) (Nat.lt_trans (of_decide_eq_true h) (by decide)) rd

theorem Fields.sqr (rd rs1 : Reg) : Fields.Statement (.sqr rd rs1) :=
  fun _ => Fields.two (by decide) (by decide) rd rs1

theorem Fields.file (rd : Reg) (n : Nat) : Fields.Statement (.file rd n) := fun h =>
  Fields.one (by decide) (Nat.lt_trans (of_decide_eq_true h) (by decide)) rd

theorem Fields.rank (rd : Reg) (n : Nat) : Fields.Statement (.rank rd n) := fun h =>
  Fields.one (by decide) (Nat.lt_trans (of_decide_eq_true h) (by decide)) rd

theorem Fields.efiles (rd : Reg) (n : Nat) : Fields.Statement (.efiles rd n) := fun h =>
  Fields.one (by decide) (Nat.lt_trans (of_decide_eq_true h) (by decide)) rd

theorem Fields.wfiles (rd : Reg) (n : Nat) : Fields.Statement (.wfiles rd n) := fun h =>
  Fields.one (by decide) (Nat.lt_trans (of_decide_eq_true h) (by decide)) rd

theorem Fields.isempty (rd rs1 : Reg) : Fields.Statement (.isempty rd rs1) :=
  fun _ => Fields.two (by decide) (by decide) rd rs1

theorem Fields.contains (rd rs1 rs2 : Reg) : Fields.Statement (.contains rd rs1 rs2) := fun _ => Fields.three (by decide) rd rs1 rs2

theorem Fields.containsi (rd rs1 : Reg) (n : Nat) : Fields.Statement (.containsi rd rs1 n) := fun h =>
  Fields.two (by decide) (Nat.lt_trans (of_decide_eq_true h) (by decide)) rd rs1

theorem Fields.shN (rd rs1 : Reg) (n : Nat) : Fields.Statement (.shN rd rs1 n) := fun h =>
  Fields.two (by decide) (Nat.lt_trans (of_decide_eq_true h) (by decide)) rd rs1

theorem Fields.shNE (rd rs1 : Reg) : Fields.Statement (.shNE rd rs1) :=
  fun _ => Fields.two (by decide) (by decide) rd rs1

theorem Fields.shE (rd rs1 : Reg) (n : Nat) : Fields.Statement (.shE rd rs1 n) := fun h =>
  Fields.two (by decide) (Nat.lt_trans (of_decide_eq_true h) (by decide)) rd rs1

theorem Fields.shSE (rd rs1 : Reg) : Fields.Statement (.shSE rd rs1) :=
  fun _ => Fields.two (by decide) (by decide) rd rs1

theorem Fields.shS (rd rs1 : Reg) (n : Nat) : Fields.Statement (.shS rd rs1 n) := fun h =>
  Fields.two (by decide) (Nat.lt_trans (of_decide_eq_true h) (by decide)) rd rs1

theorem Fields.shSW (rd rs1 : Reg) : Fields.Statement (.shSW rd rs1) :=
  fun _ => Fields.two (by decide) (by decide) rd rs1

theorem Fields.shW (rd rs1 : Reg) (n : Nat) : Fields.Statement (.shW rd rs1 n) := fun h =>
  Fields.two (by decide) (Nat.lt_trans (of_decide_eq_true h) (by decide)) rd rs1

theorem Fields.shNW (rd rs1 : Reg) : Fields.Statement (.shNW rd rs1) :=
  fun _ => Fields.two (by decide) (by decide) rd rs1

theorem Fields.fillN (rd rs1 rs2 : Reg) : Fields.Statement (.fillN rd rs1 rs2) := fun _ => Fields.three (by decide) rd rs1 rs2

theorem Fields.fillNE (rd rs1 rs2 : Reg) : Fields.Statement (.fillNE rd rs1 rs2) := fun _ => Fields.three (by decide) rd rs1 rs2

theorem Fields.fillE (rd rs1 rs2 : Reg) : Fields.Statement (.fillE rd rs1 rs2) := fun _ => Fields.three (by decide) rd rs1 rs2

theorem Fields.fillSE (rd rs1 rs2 : Reg) : Fields.Statement (.fillSE rd rs1 rs2) := fun _ => Fields.three (by decide) rd rs1 rs2

theorem Fields.fillS (rd rs1 rs2 : Reg) : Fields.Statement (.fillS rd rs1 rs2) := fun _ => Fields.three (by decide) rd rs1 rs2

theorem Fields.fillSW (rd rs1 rs2 : Reg) : Fields.Statement (.fillSW rd rs1 rs2) := fun _ => Fields.three (by decide) rd rs1 rs2

theorem Fields.fillW (rd rs1 rs2 : Reg) : Fields.Statement (.fillW rd rs1 rs2) := fun _ => Fields.three (by decide) rd rs1 rs2

theorem Fields.fillNW (rd rs1 rs2 : Reg) : Fields.Statement (.fillNW rd rs1 rs2) := fun _ => Fields.three (by decide) rd rs1 rs2

theorem Fields.atkN (rd rs1 rs2 : Reg) : Fields.Statement (.atkN rd rs1 rs2) := fun _ => Fields.three (by decide) rd rs1 rs2

theorem Fields.atkNE (rd rs1 rs2 : Reg) : Fields.Statement (.atkNE rd rs1 rs2) := fun _ => Fields.three (by decide) rd rs1 rs2

theorem Fields.atkE (rd rs1 rs2 : Reg) : Fields.Statement (.atkE rd rs1 rs2) := fun _ => Fields.three (by decide) rd rs1 rs2

theorem Fields.atkSE (rd rs1 rs2 : Reg) : Fields.Statement (.atkSE rd rs1 rs2) := fun _ => Fields.three (by decide) rd rs1 rs2

theorem Fields.atkS (rd rs1 rs2 : Reg) : Fields.Statement (.atkS rd rs1 rs2) := fun _ => Fields.three (by decide) rd rs1 rs2

theorem Fields.atkSW (rd rs1 rs2 : Reg) : Fields.Statement (.atkSW rd rs1 rs2) := fun _ => Fields.three (by decide) rd rs1 rs2

theorem Fields.atkW (rd rs1 rs2 : Reg) : Fields.Statement (.atkW rd rs1 rs2) := fun _ => Fields.three (by decide) rd rs1 rs2

theorem Fields.atkNW (rd rs1 rs2 : Reg) : Fields.Statement (.atkNW rd rs1 rs2) := fun _ => Fields.three (by decide) rd rs1 rs2

theorem Fields.popcnt (rd rs1 : Reg) : Fields.Statement (.popcnt rd rs1) :=
  fun _ => Fields.two (by decide) (by decide) rd rs1

theorem Fields.lsb (rd rs1 : Reg) : Fields.Statement (.lsb rd rs1) :=
  fun _ => Fields.two (by decide) (by decide) rd rs1

theorem Fields.clrlsb (rd rs1 : Reg) : Fields.Statement (.clrlsb rd rs1) :=
  fun _ => Fields.two (by decide) (by decide) rd rs1

end Sys2Proof.Laws
end

