-- ==== Sys2Proof/Tests/Slice0.lean ====
section
/-! SUPPORT. Tests of the model's own: an ill-formed term for each check of WellFormed, a word for each constructor, at most
two vectors of spec/95_test_vectors.md per instruction, and a witness for the hypotheses of each statement. -/

namespace Sys2Proof.Tests

open Sys2Proof.Machine

/-- Reset, then `WriteReg` of b1 = 0x1111111111111111, b2 = `x`, b3 = `y` (the convention of 95_test_vectors.md). -/
def st (x y : Word) : State := ((State.reset.writeB 1 0x1111111111111111).writeB 2 x).writeB 3 y

/-- The state with one host transaction to come. -/
def asking (s : State) (x : HostTx) : State := { s with pending := [x] }

/-- A FAULTED state: STATUS 0x0201, FAULT_INSN `efiles b2, 9` (program P4). -/
def faulted : State := (st 0 0).enterFault causeRange 0x0C200009

/-- Register `r`, STATUS and FAULT_INSN after one step that issues `w`. -/
def afterIn (r : Reg) (s : State) (w : CmdWord) : Option (Word × Word × Word) :=
  (nextOf (step (asking s (.issue w)))).map fun t => (t.readB r, t.status, t.faultInsnWord)

/-- The same for b1. -/
def after (s : State) (w : CmdWord) : Option (Word × Word × Word) := afterIn 1 s w

/-- The answers after one step. -/
def answered (s : State) (x : HostTx) : Option (List Answer) := (nextOf (step (asking s x))).map (·.answers)

/-- A word that decoding rejects is no instruction's. -/
theorem not_legal {w : CmdWord} {e : Reject} (h : decode w = .error e) : ∀ i, decode w ≠ .ok i := by
  intro i hi
  rw [h] at hi
  cases hi

/-! ### WellFormed refuses -/

theorem test_wf_refuses_amount : ¬ WellFormed (.shl 1 2 128) ∧ WellFormed (.shl 1 2 127) := by decide

theorem test_wf_refuses_square : ¬ WellFormed (.sq 1 64) ∧ ¬ WellFormed (.containsi 1 2 64) ∧ WellFormed (.sq 1 63) := by
  decide

theorem test_wf_refuses_count : ¬ WellFormed (.efiles 1 16) ∧ WellFormed (.wfiles 1 15) := by decide

theorem test_wf_refuses_index : ¬ WellFormed (.file 1 8) ∧ WellFormed (.rank 1 7) := by decide

/-! ### Decoding: words written out in the spec -/

/-- Vectors V0-1 to V0-11: the illegal words. -/
theorem test_decode_illegal :
    decode 0x00000000 = .error .unassignedOpcode ∧ decode 0x07000000 = .error .unassignedOpcode ∧
    decode 0xFF000000 = .error .unassignedOpcode ∧ decode 0x01123001 = .error .reservedField ∧
    decode 0x04121000 = .error .reservedField ∧ decode 0x21120001 = .error .reservedField ∧
    decode 0x05120080 = .error .reservedField ∧ decode 0x08100040 = .error .reservedField ∧
    decode 0x0A110003 = .error .reservedField ∧ decode 0x38123000 = .error .unassignedOpcode ∧
    decode 0x43120000 = .error .unassignedOpcode := by decide

/-- Words of the spec's vectors, one per instruction. -/
theorem test_decode_set_algebra :
    decode 0x01123000 = .ok (.and 1 2 3) ∧
    decode 0x02123000 = .ok (.or 1 2 3) ∧
    decode 0x03123000 = .ok (.xor 1 2 3) ∧
    decode 0x04220000 = .ok (.not 2 2) ∧
    decode 0x05120001 = .ok (.shl 1 2 1) ∧
    decode 0x0612003F = .ok (.shr 1 2 63) := by decide

/-- Words of the spec's vectors, one per instruction. -/
theorem test_decode_constructors :
    decode 0x0810001B = .ok (.sq 1 27) ∧
    decode 0x09220000 = .ok (.sqr 2 2) ∧
    decode 0x0A100003 = .ok (.file 1 3) ∧
    decode 0x0B100003 = .ok (.rank 1 3) ∧
    decode 0x0C100004 = .ok (.efiles 1 4) ∧
    decode 0x0D100007 = .ok (.wfiles 1 7) := by decide

/-- Words of the spec's vectors, one per instruction. -/
theorem test_decode_tests :
    decode 0x10120000 = .ok (.isempty 1 2) ∧
    decode 0x11123000 = .ok (.contains 1 2 3) ∧
    decode 0x1212003F = .ok (.containsi 1 2 63) := by decide

/-- Words of the spec's vectors, one per instruction. -/
theorem test_decode_shifter :
    decode 0x20120007 = .ok (.shN 1 2 7) ∧
    decode 0x21120000 = .ok (.shNE 1 2) ∧
    decode 0x22120002 = .ok (.shE 1 2 2) ∧
    decode 0x23120000 = .ok (.shSE 1 2) ∧
    decode 0x24120007 = .ok (.shS 1 2 7) ∧
    decode 0x25120000 = .ok (.shSW 1 2) ∧
    decode 0x26120002 = .ok (.shW 1 2 2) ∧
    decode 0x27120000 = .ok (.shNW 1 2) := by decide

/-- Words of the spec's vectors, one per instruction. -/
theorem test_decode_fills :
    decode 0x28123000 = .ok (.fillN 1 2 3) ∧
    decode 0x29123000 = .ok (.fillNE 1 2 3) ∧
    decode 0x2A123000 = .ok (.fillE 1 2 3) ∧
    decode 0x2B123000 = .ok (.fillSE 1 2 3) ∧
    decode 0x2C123000 = .ok (.fillS 1 2 3) ∧
    decode 0x2D123000 = .ok (.fillSW 1 2 3) ∧
    decode 0x2E123000 = .ok (.fillW 1 2 3) ∧
    decode 0x2F123000 = .ok (.fillNW 1 2 3) := by decide

/-- Words of the spec's vectors, one per instruction. -/
theorem test_decode_attacks :
    decode 0x30123000 = .ok (.atkN 1 2 3) ∧
    decode 0x31123000 = .ok (.atkNE 1 2 3) ∧
    decode 0x32123000 = .ok (.atkE 1 2 3) ∧
    decode 0x33123000 = .ok (.atkSE 1 2 3) ∧
    decode 0x34123000 = .ok (.atkS 1 2 3) ∧
    decode 0x35123000 = .ok (.atkSW 1 2 3) ∧
    decode 0x36123000 = .ok (.atkW 1 2 3) ∧
    decode 0x37123000 = .ok (.atkNW 1 2 3) := by decide

/-- Words of the spec's vectors, one per instruction. -/
theorem test_decode_counting :
    decode 0x40120000 = .ok (.popcnt 1 2) ∧
    decode 0x41120000 = .ok (.lsb 1 2) ∧
    decode 0x42120000 = .ok (.clrlsb 1 2) := by decide

/-! ### One step per instruction: vectors of 95_test_vectors.md -/

/-- V1-1: `and b1, b2, b3`. -/
theorem test_and : after (st 0x00FF00FF00FF00FF 0x0F0F0F0F0F0F0F0F) 0x01123000 = some (0x000F000F000F000F, 0, 0) := by decide

/-- V1-4: `or b1, b2, b3`. -/
theorem test_or : after (st 0x00FF00FF00FF00FF 0x0F0F0F0F0F0F0F0F) 0x02123000 = some (0x0FFF0FFF0FFF0FFF, 0, 0) := by decide

/-- V1-6: `xor b1, b2, b3`. -/
theorem test_xor : after (st 0x00FF00FF00FF00FF 0x0F0F0F0F0F0F0F0F) 0x03123000 = some (0x0FF00FF00FF00FF0, 0, 0) := by decide

/-- V1-11: `not b2, b2`. -/
theorem test_not : afterIn 2 (st 0x00FF00FF00FF00FF 0) 0x04220000 = some (0xFF00FF00FF00FF00, 0, 0) := by decide

/-- V1-13: `shl b1, b2, 1`. -/
theorem test_shl : after (st 0x8000000000000001 0) 0x05120001 = some (0x0000000000000002, 0, 0) := by decide

/-- V1-16: `shl b1, b2, 65`. -/
theorem test_shl_range : after (st 0xFFFFFFFFFFFFFFFF 0) 0x05120041 = some (0x1111111111111111, 0x0201, 0x05120041) := by decide

/-- V1-18: `shr b1, b2, 63`. -/
theorem test_shr : after (st 0x8000000000000001 0) 0x0612003F = some (0x0000000000000001, 0, 0) := by decide

/-- V1-20: `shr b1, b2, 127`. -/
theorem test_shr_range : after (st 0xFFFFFFFFFFFFFFFF 0) 0x0612007F = some (0x1111111111111111, 0x0201, 0x0612007F) := by decide

/-- V2-3: `sq b1, 27`. -/
theorem test_sq : after (st 0 0) 0x0810001B = some (0x0000000008000000, 0, 0) := by decide

/-- V2-8: `sqr b2, b2`. -/
theorem test_sqr : afterIn 2 (st 0x000000000000000A 0) 0x09220000 = some (0x0000000000000400, 0, 0) := by decide

/-- V2-7: `sqr b1, b2`. -/
theorem test_sqr_range : after (st 0x0000000100000003 0) 0x09120000 = some (0x1111111111111111, 0x0201, 0x09120000) := by decide

/-- V2-F3: `file b1, 3`. -/
theorem test_file : after (st 0 0) 0x0A100003 = some (0x0808080808080808, 0, 0) := by decide

/-- V2-R3: `rank b1, 3`. -/
theorem test_rank : after (st 0 0) 0x0B100003 = some (0x00000000FF000000, 0, 0) := by decide

/-- V2-E4: `efiles b1, 4`. -/
theorem test_efiles : after (st 0 0) 0x0C100004 = some (0xF0F0F0F0F0F0F0F0, 0, 0) := by decide

/-- V2-E9: `efiles b1, 9`. -/
theorem test_efiles_range : after (st 0 0) 0x0C100009 = some (0x1111111111111111, 0x0201, 0x0C100009) := by decide

/-- V2-W7: `wfiles b1, 7`. -/
theorem test_wfiles : after (st 0 0) 0x0D100007 = some (0x7F7F7F7F7F7F7F7F, 0, 0) := by decide

/-- V2-W9: `wfiles b1, 9`. -/
theorem test_wfiles_range : after (st 0 0) 0x0D100009 = some (0x1111111111111111, 0x0201, 0x0D100009) := by decide

/-- V3-1: `isempty b1, b2`. -/
theorem test_isempty : after (st 0x0000000000000000 0) 0x10120000 = some (0x0000000000000001, 0, 0) := by decide

/-- V3-2: `isempty b1, b2`. -/
theorem test_isempty_2 : after (st 0x8000000000000000 0) 0x10120000 = some (0x0000000000000000, 0, 0) := by decide

/-- V3-4: `contains b1, b2, b3`. -/
theorem test_contains : after (st 0x0000000008000000 0x000000000000001B) 0x11123000 = some (0x0000000000000001, 0, 0) := by decide

/-- V3-7: `contains b1, b2, b3`. -/
theorem test_contains_range : after (st 0xFFFFFFFFFFFFFFFF 0x0000000000000040) 0x11123000 = some (0x1111111111111111, 0x0201, 0x11123000) := by decide

/-- V3-11: `containsi b1, b2, 63`. -/
theorem test_containsi : after (st 0x8000000000000000 0) 0x1212003F = some (0x0000000000000001, 0, 0) := by decide

/-- V3-12: `containsi b1, b2, 62`. -/
theorem test_containsi_2 : after (st 0x8000000000000000 0) 0x1212003E = some (0x0000000000000000, 0, 0) := by decide

/-- V4-N7: `sh.n b1, b2, 7`. -/
theorem test_shN : after (st 0xFFFFFFFFFFFFFFFF 0) 0x20120007 = some (0xFF00000000000000, 0, 0) := by decide

/-- V4-N65: `sh.n b1, b2, 65`. -/
theorem test_shN_range : after (st 0xFFFFFFFFFFFFFFFF 0) 0x20120041 = some (0x1111111111111111, 0x0201, 0x20120041) := by decide

/-- V4-NE-corners: `sh.ne b1, b2`. -/
theorem test_shNE : after (st 0x8100000000000081 0) 0x21120000 = some (0x0000000000000200, 0, 0) := by decide

/-- V4-E2: `sh.e b1, b2, 2`. -/
theorem test_shE : after (st 0xFFFFFFFFFFFFFFFF 0) 0x22120002 = some (0xFCFCFCFCFCFCFCFC, 0, 0) := by decide

/-- V4-E9: `sh.e b1, b2, 9`. -/
theorem test_shE_range : after (st 0xFFFFFFFFFFFFFFFF 0) 0x22120009 = some (0x1111111111111111, 0x0201, 0x22120009) := by decide

/-- V4-SE-corners: `sh.se b1, b2`. -/
theorem test_shSE : after (st 0x8100000000000081 0) 0x23120000 = some (0x0002000000000000, 0, 0) := by decide

/-- V4-S7: `sh.s b1, b2, 7`. -/
theorem test_shS : after (st 0xFFFFFFFFFFFFFFFF 0) 0x24120007 = some (0x00000000000000FF, 0, 0) := by decide

/-- V4-S65: `sh.s b1, b2, 65`. -/
theorem test_shS_range : after (st 0xFFFFFFFFFFFFFFFF 0) 0x24120041 = some (0x1111111111111111, 0x0201, 0x24120041) := by decide

/-- V4-SW-corners: `sh.sw b1, b2`. -/
theorem test_shSW : after (st 0x8100000000000081 0) 0x25120000 = some (0x0040000000000000, 0, 0) := by decide

/-- V4-W2: `sh.w b1, b2, 2`. -/
theorem test_shW : after (st 0xFFFFFFFFFFFFFFFF 0) 0x26120002 = some (0x3F3F3F3F3F3F3F3F, 0, 0) := by decide

/-- V4-W9: `sh.w b1, b2, 9`. -/
theorem test_shW_range : after (st 0xFFFFFFFFFFFFFFFF 0) 0x26120009 = some (0x1111111111111111, 0x0201, 0x26120009) := by decide

/-- V4-NW-corners: `sh.nw b1, b2`. -/
theorem test_shNW : after (st 0x8100000000000081 0) 0x27120000 = some (0x0000000000004000, 0, 0) := by decide

/-- V5-N-multi: `fill.n b1, b2, b3`. -/
theorem test_fillN : after (st 0x0000000000080008 0xFFFFF7FFFFFFFFFF) 0x28123000 = some (0x0000000808080808, 0, 0) := by decide

/-- V5-same: `fill.n b2, b2, b2`. -/
theorem test_fillN_2 : afterIn 2 (st 0x0000000000000808 0) 0x28222000 = some (0x0000000000000808, 0, 0) := by decide

/-- V5-NE-open: `fill.ne b1, b2, b3`. -/
theorem test_fillNE : after (st 0x0000000008000000 0xFFFFFFFFFFFFFFFF) 0x29123000 = some (0x8040201008000000, 0, 0) := by decide

/-- V5-E-open: `fill.e b1, b2, b3`. -/
theorem test_fillE : after (st 0x0000000008000000 0xFFFFFFFFFFFFFFFF) 0x2A123000 = some (0x00000000F8000000, 0, 0) := by decide

/-- V5-E-H1: `fill.e b1, b2, b3`. -/
theorem test_fillE_2 : after (st 0x0000000000000080 0xFFFFFFFFFFFFFFFF) 0x2A123000 = some (0x0000000000000080, 0, 0) := by decide

/-- V5-SE-open: `fill.se b1, b2, b3`. -/
theorem test_fillSE : after (st 0x0000000008000000 0xFFFFFFFFFFFFFFFF) 0x2B123000 = some (0x0000000008102040, 0, 0) := by decide

/-- V5-S-D8: `fill.s b1, b2, b3`. -/
theorem test_fillS : after (st 0x0800000000000000 0xFFFFFFFFFFFFFFFF) 0x2C123000 = some (0x0808080808080808, 0, 0) := by decide

/-- V5-SW-H8: `fill.sw b1, b2, b3`. -/
theorem test_fillSW : after (st 0x8000000000000000 0xFFFFFFFFFFFFFFFF) 0x2D123000 = some (0x8040201008040201, 0, 0) := by decide

/-- V5-W-open: `fill.w b1, b2, b3`. -/
theorem test_fillW : after (st 0x0000000008000000 0xFFFFFFFFFFFFFFFF) 0x2E123000 = some (0x000000000F000000, 0, 0) := by decide

/-- V5-W-A2: `fill.w b1, b2, b3`. -/
theorem test_fillW_2 : after (st 0x0000000000000100 0xFFFFFFFFFFFFFFFF) 0x2E123000 = some (0x0000000000000100, 0, 0) := by decide

/-- V5-NW-open: `fill.nw b1, b2, b3`. -/
theorem test_fillNW : after (st 0x0000000008000000 0xFFFFFFFFFFFFFFFF) 0x2F123000 = some (0x0001020408000000, 0, 0) := by decide

/-- V6-N-D1-D5: `atk.n b1, b2, b3`. -/
theorem test_atkN : after (st 0x0000000000000008 0xFFFFFFF7FFFFFFF7) 0x30123000 = some (0x0000000808080800, 0, 0) := by decide

/-- V6-NE-open: `atk.ne b1, b2, b3`. -/
theorem test_atkNE : after (st 0x0000000008000000 0xFFFFFFFFF7FFFFFF) 0x31123000 = some (0x8040201000000000, 0, 0) := by decide

/-- V6-E-open: `atk.e b1, b2, b3`. -/
theorem test_atkE : after (st 0x0000000008000000 0xFFFFFFFFF7FFFFFF) 0x32123000 = some (0x00000000F0000000, 0, 0) := by decide

/-- V6-E-H-file: `atk.e b1, b2, b3`. -/
theorem test_atkE_2 : after (st 0x8080808080808080 0xFFFFFFFFFFFFFFFF) 0x32123000 = some (0x0000000000000000, 0, 0) := by decide

/-- V6-SE-open: `atk.se b1, b2, b3`. -/
theorem test_atkSE : after (st 0x0000000008000000 0xFFFFFFFFF7FFFFFF) 0x33123000 = some (0x0000000000102040, 0, 0) := by decide

/-- V6-S-open: `atk.s b1, b2, b3`. -/
theorem test_atkS : after (st 0x0000000008000000 0xFFFFFFFFF7FFFFFF) 0x34123000 = some (0x0000000000080808, 0, 0) := by decide

/-- V6-SW-open: `atk.sw b1, b2, b3`. -/
theorem test_atkSW : after (st 0x0000000008000000 0xFFFFFFFFF7FFFFFF) 0x35123000 = some (0x0000000000040201, 0, 0) := by decide

/-- V6-W-open: `atk.w b1, b2, b3`. -/
theorem test_atkW : after (st 0x0000000008000000 0xFFFFFFFFF7FFFFFF) 0x36123000 = some (0x0000000007000000, 0, 0) := by decide

/-- V6-W-A-file: `atk.w b1, b2, b3`. -/
theorem test_atkW_2 : after (st 0x0101010101010101 0xFFFFFFFFFFFFFFFF) 0x36123000 = some (0x0000000000000000, 0, 0) := by decide

/-- V6-NW-open: `atk.nw b1, b2, b3`. -/
theorem test_atkNW : after (st 0x0000000008000000 0xFFFFFFFFF7FFFFFF) 0x37123000 = some (0x0001020400000000, 0, 0) := by decide

/-- V7-P-8000000000000201: `popcnt b1, b2`. -/
theorem test_popcnt : after (st 0x8000000000000201 0) 0x40120000 = some (0x0000000000000003, 0, 0) := by decide

/-- V7-P-FFFFFFFFFFFFFFFF: `popcnt b1, b2`. -/
theorem test_popcnt_2 : after (st 0xFFFFFFFFFFFFFFFF 0) 0x40120000 = some (0x0000000000000040, 0, 0) := by decide

/-- V7-L-0: `lsb b1, b2`. -/
theorem test_lsb : after (st 0x0000000000000000 0) 0x41120000 = some (0x0000000000000040, 0, 0) := by decide

/-- V7-L-8000000000000200: `lsb b1, b2`. -/
theorem test_lsb_2 : after (st 0x8000000000000200 0) 0x41120000 = some (0x0000000000000009, 0, 0) := by decide

/-- V7-C-0: `clrlsb b1, b2`. -/
theorem test_clrlsb : after (st 0x0000000000000000 0) 0x42120000 = some (0x0000000000000000, 0, 0) := by decide

/-- V7-C-8000000000000200: `clrlsb b1, b2`. -/
theorem test_clrlsb_2 : after (st 0x8000000000000200 0) 0x42120000 = some (0x8000000000000000, 0, 0) := by decide

/-! ### The host port and faults -/

/-- V0-1: the all-zero word is ILLEGAL, b1 unchanged. -/
theorem test_issue_illegal : after (st 0 0) 0 = some (0x1111111111111111, 0x0101, 0) := by decide

/-- P4, rows 3 to 7: the faulted unit's answers. -/
theorem test_faulted_answers :
    answered faulted .readStatus = some [.value 0x0201] ∧ answered faulted .readFaultInsn = some [.value 0x0C200009] ∧
    answered faulted (.issue 0x02311000) = some [.rejected] ∧ answered faulted (.writeReg 4 5) = some [.rejected] ∧
    answered faulted (.readReg 1) = some [.value 0x1111111111111111] := by decide

/-- P4, row 8 and 9: Reset leaves FAULTED. -/
theorem test_reset_leaves_faulted :
    (nextOf (step (asking faulted .reset))).map (fun t => (t.status, t.faultInsnWord, t.isWritten 1)) =
      some (0, 0, false) := by decide

/-- R28, R29: the address map. -/
theorem test_port_addresses :
    answered faulted (.portRead 0x10) = some [.value 0x0201] ∧ answered faulted (.portRead 0x11) = some [.value 0x0C200009] ∧
    answered faulted (.portRead 0x12) = some [.value 0] ∧ answered faulted (.portRead 0xFF) = some [.value 0] ∧
    answered (st 7 0) (.portRead 2) = some [.value 7] ∧ answered (st 7 0) (.portWrite 0x12 0xFFFFFFFF01123000) = some [.ok] ∧
    answered faulted (.portWrite 0x10 1) = some [.ok] ∧ answered faulted (.portWrite 0x0F 1) = some [.rejected] := by decide

/-- V1-21, V7-unw, and R203: a read of an unwritten register is recorded, RS1 before RS2 and before a RANGE check, and
nothing of the unit changes (`shl b1, b2, 65`: b1 stays unwritten, STATUS 0, no answer). -/
theorem test_unwritten_reads :
    exec (.and 1 2 3) (State.reset.writeB 2 0x00FF00FF00FF00FF) =
      .next ((State.reset.writeB 2 0x00FF00FF00FF00FF).endRun 3) ∧
    exec (.popcnt 1 9) State.reset = .next (State.reset.endRun 9) ∧
    exec (.and 1 4 5) State.reset = .next (State.reset.endRun 4) ∧
    (nextOf (step (asking State.reset (.issue 0x05120041)))).map
      (fun t => (t.modelFault, t.isWritten 1, t.status, t.faultInsnWord)) = some (some (.readUnwritten 2), false, 0, 0) ∧
    answered State.reset (.issue 0x05120041) = some [] := ⟨rfl, rfl, rfl, by decide, by decide⟩

/-- R22, R200 (c): a host read of an unwritten register ends the run; no later step goes on, Reset included. -/
theorem test_run_ends :
    step (asking State.reset (.readReg 4)) = .next (State.reset.endRun 4) ∧
    step (asking (State.reset.endRun 4) .reset) = .fault (.readUnwritten 4) ∧
    step (State.reset.endRun 4) = .fault (.readUnwritten 4) := ⟨rfl, rfl, rfl⟩

/-- P3: the iteration over A1, B2, H8. -/
theorem test_iteration : (iterationRounds 2 1 4 (st 0x8000000000000201 0)).map (·.1) = some [0, 9, 63, 64] := by decide

/-- The first step after reset runs a presented word (V2-1, `sq b1, 0`). -/
theorem test_first_step :
    (nextOf (step (State.reset.withFetchWord 32 0x08100000))).map (·.readB 1) = some 1 ∧
    decodeTableWord 32 0x08100000 = some (.sq 1 0) := by decide

/-- R10: A1, H1, A2, D1, D5, H8. -/
theorem test_square_names :
    squareNamed 'A' '1' = some 0 ∧ squareNamed 'H' '1' = some 7 ∧ squareNamed 'A' '2' = some 8 ∧
    squareNamed 'D' '1' = some 3 ∧ squareNamed 'D' '5' = some 35 ∧ squareNamed 'H' '8' = some 63 ∧
    squareNamed 'I' '1' = none := by decide

/-- R63, R64: the direction is OP[2:0] of the SH, FILL and ATK words. -/
theorem test_direction_codes :
    [Dir.n, .ne, .e, .se, .s, .sw, .w, .nw].map dirCode = [0, 1, 2, 3, 4, 5, 6, 7] ∧
    opField (encode (.shSW 0 0)) = 0x20 + dirCode .sw ∧ opField (encode (.fillW 0 0 0)) = 0x28 + dirCode .w ∧
    opField (encode (.atkNW 0 0 0)) = 0x30 + dirCode .nw := by decide

/-- R69, R70: comments, hexadecimal, a pseudo-instruction, an immediate that does not fit. -/
theorem test_assembler :
    assemble "shl b1, b2, 0x40 ; all out".toList = some (.shl 1 2 64) ∧ assemble "mov b15, b0".toList = some (.or 15 0 0) ∧
    assemble "sq b0, 64".toList = none ∧ assemble "step.ne b1, b2".toList = some (.shNE 1 2) := by decide

/-! ### Witnesses: states and operands that meet each statement's hypotheses, at the boundary values of its clauses -/

theorem test_wit_encoding :
    WellFormed (.shl 1 2 127) ∧ WellFormed (.efiles 15 15) ∧ WellFormed (.containsi 0 15 63) ∧ WellFormed (.rank 0 7) ∧
    decode 0x05FF007F = .ok (.shl 15 15 127) ∧ decode 0x0CF0000F = .ok (.efiles 15 15) := by decide

theorem test_wit_illegal_word :
    (asking (st 0 0) (.issue 0x43000000)).modelFault = none ∧
    (asking (st 0 0) (.issue 0x43000000)).fault = false ∧
    (asking (st 0 0) (.issue 0x43000000)).pending = .issue 0x43000000 :: [] ∧
    (∀ i, decode 0x43000000 ≠ .ok i) ∧ (∀ i, decode 0x01123001 ≠ .ok i) :=
  ⟨rfl, rfl, rfl, not_legal (e := .unassignedOpcode) (by decide), not_legal (e := .reservedField) (by decide)⟩

theorem test_wit_table_row :
    (⟨"AND", 0xFF000FFF, 0x01000000⟩ : OpcodeRow) ∈ opcodeTable ∧ (0x01123000 : CmdWord) &&& 0xFF000FFF = 0x01000000 := by
  decide

theorem test_wit_step_runs :
    (asking (st 5 3) (.issue 0x01123000)).modelFault = none ∧
    (asking (st 5 3) (.issue 0x01123000)).pending = .issue 0x01123000 :: [] ∧
    (asking (st 5 3) (.issue 0x01123000)).fault = false ∧ decode 0x01123000 = .ok (.and 1 2 3) ∧
    Issues (.issue 0x01123000) 0x01123000 ∧ Issues (.portWrite 0x12 0xFF00000001123000) 0x01123000 :=
  ⟨rfl, rfl, rfl, by decide, .inl rfl, .inr ⟨0xFF00000001123000, rfl, by decide⟩⟩

/-- A run that goes on, with nothing and with something to do, and one that has ended. -/
theorem test_wit_idle_and_busy :
    State.reset.modelFault = none ∧ State.reset.pending = [] ∧ (asking (st 0 0) .readStatus).modelFault = none ∧
    (asking (st 0 0) .readStatus).pending ≠ [] ∧ (State.reset.endRun 4).modelFault = some (.readUnwritten 4) := by decide

/-- The order of outcomes: a FAULTED unit; an illegal word; the second source as the first unwritten one, and the first one
with a RANGE condition; all sources written, out of range and not. -/
theorem test_wit_outcomes :
    (asking faulted (.issue 0)).modelFault = none ∧ (asking faulted (.issue 0)).fault = true ∧ (∀ i, decode 0 ≠ .ok i) ∧
    Issues (.issue 0x11123000) 0x11123000 ∧ decode 0x11123000 = .ok (.contains 1 2 3) ∧
    sourcesOf (.contains 1 2 3) = [2] ++ 3 :: [] ∧ Readable (State.reset.writeB 2 0) [2] ∧
    (State.reset.writeB 2 0).isWritten 3 = false ∧
    decode 0x05120041 = .ok (.shl 1 2 65) ∧ sourcesOf (.shl 1 2 65) = [] ++ 2 :: [] ∧ Readable State.reset [] ∧
    State.reset.isWritten 2 = false ∧ outOfRange State.reset (.shl 1 2 65) = true ∧
    Readable (st 0 64) (sourcesOf (.contains 1 2 3)) ∧ outOfRange (st 0 64) (.contains 1 2 3) = true ∧
    outOfRange (st 0 63) (.contains 1 2 3) = false :=
  ⟨rfl, rfl, not_legal (e := .unassignedOpcode) (by decide), .inl rfl, by decide, rfl, by decide, by decide, by decide, rfl,
    by decide, by decide, by decide, by decide, by decide, by decide⟩

theorem test_wit_range_list :
    (st 64 0).fault = false ∧ Readable (st 64 0) (sourcesOf (.sqr 1 2)) ∧ outOfRange (st 64 0) (.sqr 1 2) = true ∧
    outOfRange (st 63 0) (.sqr 1 2) = false ∧ outOfRange (st 0 64) (.contains 1 2 3) = true ∧
    outOfRange (st 0 63) (.contains 1 2 3) = false ∧ outOfRange (st 0 0) (.shl 1 2 65) = true ∧
    outOfRange (st 0 0) (.shl 1 2 64) = false ∧ outOfRange (st 0 0) (.shE 1 2 9) = true ∧
    outOfRange (st 0 0) (.shE 1 2 8) = false ∧ outOfRange (st 0 0) (.efiles 1 9) = true ∧
    outOfRange (st 0 0) (.efiles 1 8) = false ∧ outOfRange (st 0 0) (.fillN 1 2 3) = false ∧ WellFormed (.sqr 1 2) ∧
    WellFormed (.shl 1 2 65) ∧ WellFormed (.shE 1 2 9) ∧ WellFormed (.efiles 1 9) ∧ WellFormed (.contains 1 2 3) := by decide

/-- The two-source and one-source instructions: readable sources, RD one of them or another register. -/
theorem test_wit_readable :
    (st 5 3).fault = false ∧ Readable (st 5 3) [2, 3] ∧ Readable (st 5 3) [2] ∧ Readable (st 5 3) [2, 2] ∧
    Readable (st 5 3) [1, 2] := by decide

/-- SHL, SHR, SH.N, SH.S: amounts 0, 64 complete and 65, 127 are out of range; SH.E, SH.W: 0, 8 and 9, 127. -/
theorem test_wit_amounts :
    (st 5 3).fault = false ∧ Readable (st 5 3) [2] ∧ (∀ n ∈ [0, 64], n < 128 ∧ n ≤ 64) ∧
    (∀ n ∈ [65, 127], n < 128 ∧ 64 < n) ∧ (∀ n ∈ [0, 8], n < 128 ∧ n ≤ 8) ∧ (∀ n ∈ [9, 127], n < 128 ∧ 8 < n) := by
  decide

/-- SQ and CONTAINSI squares, FILE and RANK indexes, EFILES and WFILES counts at their ends. -/
theorem test_wit_immediates :
    (st 5 3).fault = false ∧ Readable (st 5 3) [2] ∧ (∀ n ∈ [0, 63], n < 64) ∧ (∀ n ∈ [0, 7], n < 8) ∧
    (∀ n ∈ [0, 8], n < 16 ∧ n ≤ 8) ∧ (∀ n ∈ [9, 15], n < 16 ∧ 8 < n) := by decide

/-- Fill and attack: a square of the source, one reached, one attacked, at the corner squares. -/
theorem test_wit_fill_and_attack :
    (fill .ne 1 fullBoard).getLsbD 63 = true ∧ (1 : Word).getLsbD 0 = true ∧ (attack .ne 1 fullBoard).getLsbD 63 = true ∧
    (attack .sw (squareMask 63) fullBoard).getLsbD 0 = true := by decide

/-- SQR and CONTAINS: the index register at 63 and 64. -/
theorem test_wit_index_register :
    ((st 63 0).readB 2).toNat < 64 ∧ 64 ≤ ((st 64 0).readB 2).toNat ∧ ((st 0 63).readB 3).toNat < 64 ∧
    64 ≤ ((st 0 0x0000000100000003).readB 3).toNat := by decide

/-- ISEMPTY, LSB and CLRLSB: the empty set, and a set with its lowest member at 63. -/
theorem test_wit_empty_and_not :
    (∀ q, q < 64 → ((st 0 0).readB 2).getLsbD q = false) ∧ (st 0 0).readB 2 = 0 ∧
    ((st 0x8000000000000000 0).readB 2).getLsbD 63 = true ∧
    (∀ j, j < 63 → ((st 0x8000000000000000 0).readB 2).getLsbD j = false) ∧
    (st 0x8000000000000000 0).readB 2 ≠ 0 := by decide

theorem test_wit_iteration : (1 : Reg) ≠ 2 ∧ (st 5 3).fault = false ∧ Readable (st 5 3) [2] := by decide

/-- Fault entry: an illegal word, and a word that is out of range. -/
theorem test_wit_fault_entry :
    (asking (st 64 0) (.issue 0x09120000)).modelFault = none ∧
    (asking (st 64 0) (.issue 0x09120000)).pending = .issue 0x09120000 :: [] ∧ Issues (.issue 0x09120000) 0x09120000 ∧
    (asking (st 64 0) (.issue 0x09120000)).fault = false ∧ decode 0x09120000 = .ok (.sqr 1 2) ∧
    Readable (asking (st 64 0) (.issue 0x09120000)) (sourcesOf (.sqr 1 2)) ∧
    outOfRange (asking (st 64 0) (.issue 0x09120000)) (.sqr 1 2) = true :=
  ⟨rfl, rfl, .inl rfl, rfl, by decide, by decide, by decide⟩

/-- FAULTED: every clause's transaction. -/
theorem test_wit_faulted :
    (asking faulted .readStatus).modelFault = none ∧ (asking faulted .readStatus).pending = .readStatus :: [] ∧ faulted.fault = true ∧ Issues (.issue 0) 0 ∧
    HostWrites (.writeReg 15 1) 15 1 ∧ HostWrites (.portWrite 0x0F 1) 15 1 ∧ HostReads (.readReg 0) 0 ∧
    HostReads (.portRead 0x01) 1 ∧ faulted.isWritten 1 = true ∧ 0x10 ≤ (0x10 : BitVec 8).toNat ∧
    (0x10 : BitVec 8).toNat ≠ 0x12 ∧ (HostTx.readStatus ≠ .reset) ∧
    step (asking faulted .readStatus) = .next ((taken faulted).reply (.value 0x0201)) :=
  ⟨rfl, rfl, rfl, .inl rfl, .inl rfl, .inr ⟨0x0F, rfl, by decide⟩, .inl rfl, .inr ⟨0x01, rfl, by decide⟩, by decide, by decide,
    by decide, by decide, rfl⟩

theorem test_wit_leaving_faulted :
    (asking faulted .reset).fault = true ∧ step (asking faulted .reset) = .next ((taken faulted).applyReset.reply .ok) ∧
    ((taken faulted).applyReset.reply .ok).fault = false := ⟨rfl, rfl, rfl⟩

/-- The three forms of a coherent fault record, and a step from each. -/
theorem test_wit_fault_record :
    FaultRecord (st 0 0) ∧ FaultRecord ((st 0 0).enterFault causeIllegal 0) ∧ FaultRecord faulted ∧
    step (st 0 0) = .next (st 0 0) ∧ step faulted = .next faulted :=
  ⟨.inl ⟨rfl, rfl, rfl⟩, .inr (.inl ⟨rfl, rfl, .unassignedOpcode, by decide⟩),
    .inr (.inr ⟨rfl, rfl, .efiles 2 9, by decide⟩), rfl, rfl⟩

/-- STATUS and FAULT_INSN: a coherent record with FAULT clear, and a command that changes STATUS. -/
theorem test_wit_status :
    FaultRecord (st 0 0) ∧ (st 0 0).status.getLsbD 0 = false ∧
    step (asking (st 0 0) (.issue 0)) = .next ((taken (st 0 0)).enterFault causeIllegal 0).complete ∧
    ((taken (st 0 0)).enterFault causeIllegal 0).complete.status ≠ (asking (st 0 0) (.issue 0)).status :=
  ⟨.inl ⟨rfl, rfl, rfl⟩, by decide, rfl, by decide⟩

/-- Each kind of transaction as the next one, FAULTED and not, with a word that is legal and one that is not. -/
theorem test_wit_transactions :
    (asking (st 0 0) .reset).modelFault = none ∧ (asking faulted (.issue 0)).modelFault = none ∧
    (asking (st 0 0) (.portRead 0x12)).modelFault = none ∧ (asking (st 0 0) .reset).pending = .reset :: [] ∧ (asking faulted (.issue 0)).fault = true ∧
    (asking (st 0 0) (.issue 0x08100000)).fault = false ∧ decode 0x08100000 = .ok (.sq 1 0) ∧
    Readable (asking (st 0 0) (.issue 0x08100000)) (sourcesOf (.sq 1 0)) ∧ decode 0x01123000 = .ok (.and 1 2 3) ∧
    Readable (asking (st 0 0) (.issue 0x01123000)) (sourcesOf (.and 1 2 3)) ∧
    (∀ i, decode 0x00000000 ≠ .ok i) ∧ (asking (st 0 0) (.writeReg 0 1)).fault = false ∧
    (asking (st 0 0) (.readReg 2)).isWritten 2 = true ∧
    (asking (st 0 0) (.portWrite 0x12 7)).pending = .portWrite 0x12 7 :: [] :=
  ⟨rfl, rfl, rfl, rfl, rfl, rfl, by decide, by decide, by decide, by decide,
    not_legal (e := .unassignedOpcode) (by decide), rfl, by decide, rfl⟩

/-- The port addresses at the ends of each range. -/
theorem test_wit_port_addresses :
    (0x00 : BitVec 8).toNat = (0 : Reg).val ∧ (0x0F : BitVec 8).toNat = (15 : Reg).val ∧ 0x13 ≤ (0x13 : BitVec 8).toNat ∧
    0x13 ≤ (0xFF : BitVec 8).toNat ∧ 0x10 ≤ (0x10 : BitVec 8).toNat ∧ (0x11 : BitVec 8).toNat ≠ 0x12 := by decide

theorem test_wit_cmd_write : (0xABCD000001123000 : Word).setWidth 32 = (0x01123000 : Word).setWidth 32 := by decide

theorem test_wit_host_reads :
    isHostRead (.readReg 2) = true ∧ isHostRead (.portRead 0xFF) = true ∧
    transact (.readReg 2) (st 5 0) = .next ((st 5 0).reply (.value 5)) ∧
    transact (.readReg 2) ((st 5 0).reply (.value 5)) = .next (((st 5 0).reply (.value 5)).reply (.value 5)) ∧
    (∀ r, HostReads (.readReg 2) r → (st 5 0).isWritten r = true) :=
  ⟨rfl, rfl, rfl, rfl, fun r h => by rcases h with h | ⟨a, h, -⟩ <;> cases h; decide⟩

/-- A register that changes: by a host write, and by a command. -/
theorem test_wit_register_changes :
    step (asking (st 5 0) (.writeReg 2 9)) = .next (((taken (st 5 0)).writeB 2 9).reply .ok) ∧
    (((taken (st 5 0)).writeB 2 9).reply .ok).readB 2 ≠ (asking (st 5 0) (.writeReg 2 9)).readB 2 ∧
    step (asking (st 5 0) (.issue 0x08100000)) = .next ((taken (st 5 0)).writeB 1 1).complete ∧
    ((taken (st 5 0)).writeB 1 1).complete.readB 1 ≠ (asking (st 5 0) (.issue 0x08100000)).readB 1 :=
  ⟨rfl, by decide, rfl, by decide⟩

/-- The position: an accepted command, a rejected one, a transaction that issues nothing, and a command that ends the run. -/
theorem test_wit_position :
    step (asking (st 5 0) (.issue 0x08100000)) = .next ((taken (st 5 0)).writeB 1 1).complete ∧
    ((taken (st 5 0)).writeB 1 1).complete.modelFault = none ∧
    step (asking State.reset (.issue 0x05120041)) = .next (State.reset.endRun 2) ∧ (State.reset.endRun 2).modelFault ≠ none ∧
    (∃ w, Issues (.issue 0) w) ∧ (st 0 0).fault = false ∧ faulted.fault = true ∧ (∀ w, ¬ Issues .readStatus w) :=
  ⟨rfl, rfl, rfl, by decide, ⟨0, .inl rfl⟩, rfl, rfl, fun w h => by rcases h with h | ⟨v, h, -⟩ <;> cases h⟩

/-- The written bits and the model fault: a Reset that clears a bit, host reads of a written and an unwritten register, a run
that has ended. -/
theorem test_wit_written_bits :
    step (asking (st 0 0) .reset) = .next ((taken (st 0 0)).applyReset.reply .ok) ∧
    (asking (st 0 0) .reset).isWritten 1 = true ∧ ((taken (st 0 0)).applyReset.reply .ok).isWritten 1 = false ∧
    (asking (st 0 0) (.readReg 4)).modelFault = none ∧ (asking (st 0 0) (.readReg 4)).pending = .readReg 4 :: [] ∧
    HostReads (.readReg 4) 4 ∧ (st 0 0).isWritten 4 = false ∧ HostReads (.portRead 0x02) 2 ∧ (st 0 0).isWritten 2 = true ∧
    (State.reset.endRun 4).modelFault = some (.readUnwritten 4) :=
  ⟨rfl, by decide, by decide, rfl, rfl, .inl rfl, by decide, .inr ⟨0x02, rfl, by decide⟩, by decide, rfl⟩

/-- Two states that differ in the unwritten b4 only, and a step of one: a command that reads written registers, and one that
reads b4. -/
theorem test_wit_unwritten_values :
    SameButUnwritten (asking (st 5 3) (.issue 0x01123000))
      { asking (st 5 3) (.issue 0x01123000) with b := (st 5 3).b.set 4 99 } ∧
    step (asking (st 5 3) (.issue 0x01123000)) = .next ((taken (st 5 3)).writeB 1 1).complete ∧
    step (asking (st 5 3) (.issue 0x10140000)) = .next ((taken (st 5 3)).endRun 4) :=
  ⟨⟨rfl, by decide, rfl, ⟨rfl, rfl, rfl, rfl, rfl, rfl, rfl⟩⟩, rfl, rfl⟩

/-- Geometry: a step that stays on the board, and one that leaves it. Shifts: amounts 63 and 64. -/
theorem test_wit_geometry :
    neighbour .ne 54 = some 63 ∧ neighbour .e 63 = none ∧ neighbour .sw 0 = none ∧ neighbour .nw 1 = some 8 ∧
    ray .n 3 7 = some 59 ∧ ray .n 3 8 = none ∧ (63 : Nat) < 64 ∧ 64 ≤ (64 : Nat) := by decide

theorem test_wit_pseudo : (st 5 3).fault = false ∧ Readable (st 5 3) [2, 3] ∧ 64 ≤ 64 := by decide

end Sys2Proof.Tests
end

section
/-! The shift primitives as arithmetic (R8), the squares of the multi-file masks (R12), and the neighbour relation in
coordinates (R9, R11); then the obligations of the scope section. -/

namespace Sys2Proof.Machine

/-! ### The shift primitives on unsigned values (R8) -/

theorem shl_toNat (v : Word) (n : Nat) : (shl v n).toNat = v.toNat * 2 ^ n % 2 ^ 64 := by
  rw [shl, BitVec.toNat_shiftLeft, Nat.shiftLeft_eq]

theorem shr_toNat (v : Word) (n : Nat) : (shr v n).toNat = v.toNat / 2 ^ n := by
  rw [shr, BitVec.toNat_ushiftRight, Nat.shiftRight_eq_div_pow]

theorem shl_eq_zero (v : Word) {n : Nat} (h : 64 ≤ n) : shl v n = 0 := BitVec.shiftLeft_eq_zero h

theorem shr_eq_zero (v : Word) {n : Nat} (h : 64 ≤ n) : shr v n = 0 := BitVec.ushiftRight_eq_zero h

/-! ### The named masks (R12) -/

theorem fileMask_eq_shiftLeft (f : Nat) : fileMask f = fileMask 0 <<< f := by
  simp only [fileMask, shl, BitVec.shiftLeft_zero]

theorem rankMask_eq_shiftLeft (r : Nat) : rankMask r = rankMask 0 <<< (8 * r) := by
  simp only [rankMask, shl, Nat.mul_zero, BitVec.shiftLeft_zero]

/-- A union of files holds exactly the squares that one of the listed files holds. -/
theorem unionFiles_getLsbD_iff (fs : List Nat) (q : Nat) :
    (unionFiles fs).getLsbD q = true ↔ ∃ f ∈ fs, (fileMask f).getLsbD q = true := by
  induction fs with
  | nil => simp [unionFiles, emptyBoard]
  | cons f fs ih =>
    have head_or_rest : unionFiles (f :: fs) = fileMask f ||| unionFiles fs := rfl
    simp [head_or_rest, ih]

theorem westFiles_getLsbD_iff (n q : Nat) :
    (westFiles n).getLsbD q = true ↔ ∃ f, f < n ∧ (fileMask f).getLsbD q = true := by
  simp [westFiles, unionFiles_getLsbD_iff]

/-- The files that `eastFiles n` lists are `8 - n .. 7`. -/
theorem mem_eastFileIndices_iff {n : Nat} (h : n ≤ 8) (f : Nat) :
    f ∈ (List.range n).map (· + (8 - n)) ↔ 8 - n ≤ f ∧ f ≤ 7 := by
  simp only [List.mem_map, List.mem_range]
  constructor
  · rintro ⟨i, hi, rfl⟩
    omega
  · intro hf
    exact ⟨f - (8 - n), by omega, by omega⟩

theorem eastFiles_getLsbD_iff {n : Nat} (h : n ≤ 8) (q : Nat) :
    (eastFiles n).getLsbD q = true ↔ ∃ f, 8 - n ≤ f ∧ f ≤ 7 ∧ (fileMask f).getLsbD q = true := by
  simp only [eastFiles, unionFiles_getLsbD_iff, mem_eastFileIndices_iff h, and_assoc]

/-! ### Squares in coordinates and their neighbours (R9, R11) -/

theorem squareAt_fileOf_rankOf (s : Nat) : squareAt (fileOf s) (rankOf s) = s := Nat.div_add_mod' s 8

theorem fileOf_squareAt {f : Nat} (h : f < 8) (r : Nat) : fileOf (squareAt f r) = f := by
  simp only [fileOf, squareAt]; omega

theorem rankOf_squareAt {f : Nat} (h : f < 8) (r : Nat) : rankOf (squareAt f r) = r := by
  simp only [rankOf, squareAt]; omega

theorem squareAt_lt {f r : Nat} (hf : f < 8) (hr : r < 8) : squareAt f r < 64 := by
  simp only [squareAt]; omega

/-- R11's index offsets are the ones its file and rank changes give. -/
theorem dirOffset_eq (d : Dir) : dirOffset d = 8 * dirRank d + dirFile d := by cases d <;> rfl

/-- A step's target is the board square whose file and rank are changed as the direction says. -/
theorem neighbour_eq_some {d : Dir} {o q : Nat} (h : neighbour d o = some q) :
    q < 64 ∧ (fileOf q : Int) = fileOf o + dirFile d ∧ (rankOf q : Int) = rankOf o + dirRank d := by
  simp only [neighbour, Option.ite_none_right_eq_some, Option.some.injEq] at h
  obtain ⟨⟨hf0, hf8, hr0, hr8⟩, rfl⟩ := h
  have hf : ((fileOf o : Int) + dirFile d).toNat < 8 := by omega
  have hr : ((rankOf o : Int) + dirRank d).toNat < 8 := by omega
  rw [fileOf_squareAt hf, rankOf_squareAt hf]
  exact ⟨squareAt_lt hf hr, Int.toNat_of_nonneg hf0, Int.toNat_of_nonneg hr0⟩

theorem neighbour_eq_none_iff (d : Dir) (o : Nat) : neighbour d o = none ↔
    (fileOf o : Int) + dirFile d < 0 ∨ 7 < (fileOf o : Int) + dirFile d ∨
    (rankOf o : Int) + dirRank d < 0 ∨ 7 < (rankOf o : Int) + dirRank d := by
  simp only [neighbour, ite_eq_right_iff, reduceCtorEq, imp_false]
  omega

theorem neighbour_offset {d : Dir} {o q : Nat} (h : neighbour d o = some q) : (q : Int) = o + dirOffset d := by
  obtain ⟨-, hfile, hrank⟩ := neighbour_eq_some h
  have ho := squareAt_fileOf_rankOf o
  have hq := squareAt_fileOf_rankOf q
  have hd := dirOffset_eq d
  simp only [squareAt] at ho hq
  omega

end Sys2Proof.Machine

namespace Sys2Proof

open Sys2Proof.Machine

/-- Settles O49: literal values, and R12's unions read off square by square from the listed files. -/
theorem namedMasksHaveTheirValues : Obligations.NamedMasksHaveTheirValues :=
  ⟨rfl, rfl, rfl, rfl, fileMask_eq_shiftLeft, rfl, rfl, rankMask_eq_shiftLeft, rfl, rfl, rfl, rfl,
    fun n h q => ⟨westFiles_getLsbD_iff n q, eastFiles_getLsbD_iff h q⟩⟩

/-- Settles O51: the step's target in coordinates, and the offset that its file and rank changes add up to. -/
theorem neighboursFollowFileAndRank : Obligations.NeighboursFollowFileAndRank := by
  refine ⟨fun d o q _ h => ?_, fun d o _ => neighbour_eq_none_iff d o, squareAt_fileOf_rankOf⟩
  obtain ⟨hq, hfile, hrank⟩ := neighbour_eq_some h
  exact ⟨hq, neighbour_offset h, hfile, hrank⟩

/-- Settles O50: each shift is a product or quotient by a power of two, and empty from 64 on. -/
theorem shiftPrimitivesAreArithmetic : Obligations.ShiftPrimitivesAreArithmetic :=
  fun v n => ⟨fun _ => ⟨shl_toNat v n, shr_toNat v n⟩, fun h => ⟨shl_eq_zero v h, shr_eq_zero v h⟩⟩

end Sys2Proof
end

section
/-! A legal word is the encoding of the instruction it decodes to (R60, R61, R65): one lemma per kind of format. -/

namespace Sys2Proof

theorem ifZero_eq_ok {unused : Bool} {i j : Instr} : ifZero unused j = .ok i ↔ unused = true ∧ j = i := by
  cases unused <;> simp [ifZero]

/-- Where the upper part of IMM is 0, IMM is its lower part. -/
theorem imm_eq_low {w : CmdWord} {hi : Nat} (h : hi ≤ 10) (hz : bits w 11 (hi + 1) = 0) : bits w 11 0 = bits w hi 0 := by
  simp only [bits] at hz ⊢
  interval_cases hi <;> omega

theorem rs1Field_eq_zero {w : CmdWord} (h : bits w 19 16 = 0) : rs1Field w = 0 := by rw [rs1Field, h]; rfl

theorem rs2Field_eq_zero {w : CmdWord} (h : bits w 15 12 = 0) : rs2Field w = 0 := by rw [rs2Field, h]; rfl

section
variable {w : CmdWord} {i : Instr} {op : Nat} (hop : opField w = op)
include hop

/-- Format R: all fields but IMM are operands. -/
theorem encode_of_decodeR {mk : Reg → Reg → Reg → Instr}
    (h : decodeR w mk = .ok i) (enc : ∀ rd rs1 rs2, encode (mk rd rs1 rs2) = cmdWord op rd rs1 rs2 0) : encode i = w := by
  obtain ⟨hz, rfl⟩ := ifZero_eq_ok.mp h
  have himm : bits w 11 0 = 0 := by simpa using hz
  rw [enc, ← hop, ← himm, cmdWord_fields]

/-- Format U: RD and RS1 are operands. -/
theorem encode_of_decodeU {mk : Reg → Reg → Instr}
    (h : decodeU w mk = .ok i) (enc : ∀ rd rs1, encode (mk rd rs1) = cmdWord op rd rs1 0 0) : encode i = w := by
  obtain ⟨hz, rfl⟩ := ifZero_eq_ok.mp h
  obtain ⟨hrs2, himm⟩ : bits w 15 12 = 0 ∧ bits w 11 0 = 0 := by simpa using hz
  rw [enc, ← hop, ← rs2Field_eq_zero hrs2, ← himm, cmdWord_fields]

/-- Formats I7 (`hi = 6`) and I6 (`hi = 5`): RD, RS1 and `IMM[hi:0]` are operands. -/
theorem encode_of_decodeI (hi : Nat) (hhi : hi ≤ 10) {mk : Reg → Reg → Nat → Instr}
    (h : ifZero (bits w 15 12 == 0 && bits w 11 (hi + 1) == 0) (mk (rdField w) (rs1Field w) (bits w hi 0)) = .ok i)
    (enc : ∀ rd rs1 n, encode (mk rd rs1 n) = cmdWord op rd rs1 0 n) : encode i = w := by
  obtain ⟨hz, rfl⟩ := ifZero_eq_ok.mp h
  obtain ⟨hrs2, himm⟩ : bits w 15 12 = 0 ∧ bits w 11 (hi + 1) = 0 := by simpa using hz
  rw [enc, ← hop, ← rs2Field_eq_zero hrs2, ← imm_eq_low hhi himm, cmdWord_fields]

/-- Formats C6 (`hi = 5`), C4 (`hi = 3`) and C3 (`hi = 2`): RD and `IMM[hi:0]` are operands. -/
theorem encode_of_decodeC (hi : Nat) (hhi : hi ≤ 10) {mk : Reg → Nat → Instr}
    (h : ifZero (bits w 19 16 == 0 && bits w 15 12 == 0 && bits w 11 (hi + 1) == 0) (mk (rdField w) (bits w hi 0)) = .ok i)
    (enc : ∀ rd n, encode (mk rd n) = cmdWord op rd 0 0 n) : encode i = w := by
  obtain ⟨hz, rfl⟩ := ifZero_eq_ok.mp h
  obtain ⟨⟨hrs1, hrs2⟩, himm⟩ : (bits w 19 16 = 0 ∧ bits w 15 12 = 0) ∧ bits w 11 (hi + 1) = 0 := by simpa using hz
  have word := cmdWord_fields w
  rw [rs1Field_eq_zero hrs1, rs2Field_eq_zero hrs2, imm_eq_low hhi himm, hop] at word
  rw [enc, word]

end

/-- No bit of a legal word is dropped: along the opcode map of R64, each opcode's format. -/
theorem encode_of_decode {w : CmdWord} {i : Instr} (h : decode w = .ok i) : encode i = w := by
  unfold decode at h
  split at h
  case h_1 hop | h_2 hop | h_3 hop | h_14 hop | h_24 hop | h_25 hop | h_26 hop | h_27 hop | h_28 hop | h_29 hop | h_30 hop
     | h_31 hop | h_32 hop | h_33 hop | h_34 hop | h_35 hop | h_36 hop | h_37 hop | h_38 hop | h_39 hop =>
    exact encode_of_decodeR hop h (fun _ _ _ => rfl)
  case h_4 hop | h_8 hop | h_13 hop | h_17 hop | h_19 hop | h_21 hop | h_23 hop | h_40 hop | h_41 hop | h_42 hop =>
    exact encode_of_decodeU hop h (fun _ _ => rfl)
  case h_5 hop | h_6 hop | h_16 hop | h_18 hop | h_20 hop | h_22 hop =>
    exact encode_of_decodeI hop 6 (by decide) h (fun _ _ _ => rfl)
  case h_15 hop => exact encode_of_decodeI hop 5 (by decide) h (fun _ _ _ => rfl)
  case h_7 hop => exact encode_of_decodeC hop 5 (by decide) h (fun _ _ => rfl)
  case h_9 hop | h_10 hop => exact encode_of_decodeC hop 2 (by decide) h (fun _ _ => rfl)
  case h_11 hop | h_12 hop => exact encode_of_decodeC hop 3 (by decide) h (fun _ _ => rfl)
  case h_43 => cases h

end Sys2Proof
end

section
/-! What one command and one transaction can do. Every instruction reads its sources and then retires with what those
values alone give (R100, R203), and every transaction is a Reset, an issue, a host write, a host read, or one that is only
answered (R29, R234). -/

namespace Sys2Proof.Machine

/-! ### Executing an instruction (R100) -/

/-- The meaning `m` reads `srcs`, RS1 before RS2, and then writes `rd` or raises RANGE for `cmd`, as the values it has read
say and nothing else. -/
def ReadsThenRetires (srcs : List Reg) (cmd : CmdWord) (rd : Reg) (m : State → Result) : Prop :=
  ∃ f : List Word → Option Word, ∀ s, m s = afterReads srcs s (retire cmd rd (f (srcs.map s.readB)) s)

section
variable {m : State → Result} (cmd : CmdWord) {rd : Reg}

theorem readsThenRetires_of_nullary {v : Word} (h : ∀ s, m s = nullary rd v s) : ReadsThenRetires [] cmd rd m :=
  ⟨fun _ => some v, h⟩

theorem readsThenRetires_of_unary {x : Reg} {f : Word → Word} (h : ∀ s, m s = unary rd x f s) :
    ReadsThenRetires [x] cmd rd m := ⟨fun vs => some (f (vs.getD 0 0)), h⟩

theorem readsThenRetires_of_binary {x y : Reg} {f : Word → Word → Word} (h : ∀ s, m s = binary rd x y f s) :
    ReadsThenRetires [x, y] cmd rd m := ⟨fun vs => some (f (vs.getD 0 0) (vs.getD 1 0)), h⟩

variable {cmd}

theorem readsThenRetires_of_nullaryRanged {r : Option Word} (h : ∀ s, m s = nullaryRanged cmd rd r s) :
    ReadsThenRetires [] cmd rd m := ⟨fun _ => r, h⟩

theorem readsThenRetires_of_unaryRanged {x : Reg} {f : Word → Option Word} (h : ∀ s, m s = unaryRanged cmd rd x f s) :
    ReadsThenRetires [x] cmd rd m := ⟨fun vs => f (vs.getD 0 0), h⟩

theorem readsThenRetires_of_binaryRanged {x y : Reg} {f : Word → Word → Option Word}
    (h : ∀ s, m s = binaryRanged cmd rd x y f s) : ReadsThenRetires [x, y] cmd rd m :=
  ⟨fun vs => f (vs.getD 0 0) (vs.getD 1 0), h⟩

end

/-- Every instruction has one of the six execution forms. -/
theorem exec_readsThenRetires (i : Instr) : ReadsThenRetires (sourcesOf i) (encode i) (destOf i) (exec i) := by
  cases i with
  | sq | file | rank => exact readsThenRetires_of_nullary _ fun _ => by rw [exec]; exact rfl
  | efiles | wfiles => exact readsThenRetires_of_nullaryRanged fun _ => by rw [exec]; exact rfl
  | not | isempty | containsi | shNE | shSE | shSW | shNW | popcnt | lsb | clrlsb =>
    exact readsThenRetires_of_unary _ fun _ => by rw [exec]; exact rfl
  | shl | shr | sqr | shN | shE | shS | shW => exact readsThenRetires_of_unaryRanged fun _ => by rw [exec]; exact rfl
  | and | or | xor | fillN | fillNE | fillE | fillSE | fillS | fillSW | fillW | fillNW | atkN | atkNE | atkE | atkSE | atkS
      | atkSW | atkW | atkNW => exact readsThenRetires_of_binary _ fun _ => by rw [exec]; exact rfl
  | contains => exact readsThenRetires_of_binaryRanged fun _ => by rw [exec]; exact rfl

/-- The three outcomes of a command: its run ends at the first unwritten source, or RD is written, or RANGE is entered. -/
theorem exec_cases (i : Instr) (s : State) :
    (∃ r, firstUnwritten s (sourcesOf i) = some r ∧ exec i s = .next (s.endRun r)) ∨
    (Readable s (sourcesOf i) ∧ ∃ v, exec i s = .next (s.writeB (destOf i) v)) ∨
    (Readable s (sourcesOf i) ∧ exec i s = .next (s.enterFault causeRange (encode i))) := by
  obtain ⟨f, hf⟩ := exec_readsThenRetires i
  cases hu : firstUnwritten s (sourcesOf i) with
  | some r => exact .inl ⟨r, rfl, by rw [hf, afterReads_of_unwritten hu]⟩
  | none =>
    have hr := firstUnwritten_eq_none.mp hu
    rw [hf, afterReads_of_readable hr]
    cases f ((sourcesOf i).map s.readB) with
    | some v => exact .inr (.inl ⟨hr, v, rfl⟩)
    | none => exact .inr (.inr ⟨hr, rfl⟩)

/-! ### The kinds of transaction (R29, R234) -/

theorem port_address_cases (a : BitVec 8) :
    (∃ r : Reg, a.toNat = r.val) ∨ a = 0x10 ∨ a = 0x11 ∨ a = 0x12 ∨ 0x13 ≤ a.toNat := by
  by_cases h : a.toNat < 16
  · exact .inl ⟨⟨a.toNat, h⟩, rfl⟩
  · bv_omega

theorem transact_of_hostReads {x : HostTx} {r : Reg} (h : HostReads x r) (s : State) :
    transact x s = hostReadReg r s := by
  rcases h with rfl | ⟨a, rfl, ha⟩
  · rfl
  · simp only [transact, portRead, portTarget_register ha]

theorem transact_of_hostWrites {x : HostTx} {r : Reg} {v : Word} (h : HostWrites x r v) (s : State) :
    transact x s = hostWriteReg r v s := by
  rcases h with rfl | ⟨a, rfl, ha⟩
  · rfl
  · simp only [transact, portWrite, portTarget_register ha]

theorem transact_portRead_unmapped {a : BitVec 8} (h : 0x13 ≤ a.toNat) (s : State) :
    transact (.portRead a) s = .next (s.reply (.value 0)) := by simp only [transact, portRead, portTarget_unmapped h]

theorem transact_portWrite_unmapped {a : BitVec 8} (h : 0x13 ≤ a.toNat) (v : Word) (s : State) :
    transact (.portWrite a v) s = .next (s.reply .ok) := by simp only [transact, portWrite, portTarget_unmapped h]

/-- A transaction that issues no command and only answers, with what STATUS and FAULT_INSN may say. -/
def OnlyAnswered (x : HostTx) : Prop :=
  (∀ w, ¬ Issues x w) ∧ ∃ a : Word → Word → Answer, ∀ s, transact x s = .next (s.reply (a s.status s.faultInsnWord))

theorem not_issues_reset (w : CmdWord) : ¬ Issues .reset w := by simp [Issues]

theorem not_issues_of_hostReads {x : HostTx} {r : Reg} (h : HostReads x r) (w : CmdWord) : ¬ Issues x w := by
  rcases h with rfl | ⟨a, rfl, -⟩ <;> simp [Issues]

theorem not_issues_portWrite {a : BitVec 8} (h : a ≠ 0x12) (v : Word) (w : CmdWord) : ¬ Issues (.portWrite a v) w := by
  rintro (hw | ⟨u, hu, -⟩)
  · cases hw
  · cases hu
    exact h rfl

theorem not_issues_of_hostWrites {x : HostTx} {r : Reg} {v : Word} (h : HostWrites x r v) (w : CmdWord) :
    ¬ Issues x w := by
  rcases h with rfl | ⟨a, rfl, ha⟩
  · simp [Issues]
  · have hr := r.isLt
    exact not_issues_portWrite (by bv_omega) v w

/-- Every transaction is of one kind: the named ones of R234, or an access to a port address of R29. -/
theorem transaction_kinds (x : HostTx) :
    x = .reset ∨ (∃ w, Issues x w) ∨ (∃ r v, HostWrites x r v) ∨ (∃ r, HostReads x r) ∨ OnlyAnswered x := by
  cases x with
  | reset => exact .inl rfl
  | issue w => exact .inr (.inl ⟨w, .inl rfl⟩)
  | writeReg r v => exact .inr (.inr (.inl ⟨r, v, .inl rfl⟩))
  | readReg r => exact .inr (.inr (.inr (.inl ⟨r, .inl rfl⟩)))
  | readStatus => exact .inr (.inr (.inr (.inr ⟨by simp [Issues], fun status _ => .value status, fun _ => rfl⟩)))
  | readFaultInsn => exact .inr (.inr (.inr (.inr ⟨by simp [Issues], fun _ insn => .value insn, fun _ => rfl⟩)))
  | portRead a =>
    refine .inr (.inr (.inr ?_))
    have noIssue : ∀ w, ¬ Issues (.portRead a) w := by simp [Issues]
    rcases port_address_cases a with ⟨r, ha⟩ | rfl | rfl | rfl | ha
    · exact .inl ⟨r, .inr ⟨a, rfl, ha⟩⟩
    · exact .inr ⟨noIssue, fun status _ => .value status, fun _ => rfl⟩
    · exact .inr ⟨noIssue, fun _ insn => .value insn, fun _ => rfl⟩
    · exact .inr ⟨noIssue, fun _ _ => .value 0, fun _ => rfl⟩
    · exact .inr ⟨noIssue, fun _ _ => .value 0, transact_portRead_unmapped ha⟩
  | portWrite a v =>
    rcases port_address_cases a with ⟨r, ha⟩ | rfl | rfl | rfl | ha
    · exact .inr (.inr (.inl ⟨r, v, .inr ⟨a, rfl, ha⟩⟩))
    · exact .inr (.inr (.inr (.inr ⟨not_issues_portWrite (by decide) v, fun _ _ => .ok, fun _ => rfl⟩)))
    · exact .inr (.inr (.inr (.inr ⟨not_issues_portWrite (by decide) v, fun _ _ => .ok, fun _ => rfl⟩)))
    · exact .inr (.inl ⟨v.setWidth 32, .inr ⟨v, rfl, rfl⟩⟩)
    · exact .inr (.inr (.inr (.inr ⟨not_issues_portWrite (by bv_omega) v, fun _ _ => .ok,
        transact_portWrite_unmapped ha v⟩)))

/-! ### What a transaction does to the state -/

/-- The state that transaction `x` leaves, from a state `s` of a run that goes on. -/
inductive Effect (x : HostTx) (s : State) : State → Prop
  | reset : x = .reset → Effect x s (s.applyReset.reply .ok)
  | hostWrote {r : Reg} {v : Word} : s.fault = false → HostWrites x r v → Effect x s ((s.writeB r v).reply .ok)
  | illegal {w : CmdWord} {e : Reject} : s.fault = false → Issues x w → decode w = .error e →
      Effect x s (s.enterFault causeIllegal w).complete
  | wrote {w : CmdWord} {i : Instr} {v : Word} : s.fault = false → Issues x w → decode w = .ok i →
      Readable s (sourcesOf i) → Effect x s (s.writeB (destOf i) v).complete
  | range {w : CmdWord} {i : Instr} : s.fault = false → Issues x w → decode w = .ok i → Readable s (sourcesOf i) →
      Effect x s (s.enterFault causeRange w).complete
  | commandEnded {w : CmdWord} {i : Instr} {r : Reg} : s.fault = false → Issues x w → decode w = .ok i →
      firstUnwritten s (sourcesOf i) = some r → Effect x s (s.endRun r)
  | readEnded {r : Reg} : HostReads x r → s.isWritten r = false → Effect x s (s.endRun r)
  | answered {a : Answer} : (∀ w, ¬ Issues x w) ∨ s.fault = true → Effect x s (s.reply a)

theorem effect_of_issues {x : HostTx} {w : CmdWord} (hx : Issues x w) {s t : State} (hm : s.modelFault = none)
    (h : issue w s = .next t) : Effect x s t := by
  cases hf : s.fault with
  | true =>
    rw [issue_rejected hf] at h
    cases h
    exact .answered (.inr hf)
  | false =>
    cases hd : decode w with
    | error e =>
      rw [issue_illegal hf hd] at h
      cases h
      exact .illegal hf hx hd
    | ok i =>
      rw [issue_legal hf hd] at h
      obtain ⟨r, hu, he⟩ | ⟨hr, v, he⟩ | ⟨hr, he⟩ := exec_cases i s <;> rw [he] at h <;> cases h
      · rw [State.finish_of_some (State.endRun_modelFault s r)]
        exact .commandEnded hf hx hd hu
      · rw [State.finish_of_none (s := s.writeB _ v) hm]
        exact .wrote hf hx hd hr
      · rw [State.finish_of_none (s := s.enterFault _ _) hm, encode_of_decode hd]
        exact .range hf hx hd hr

theorem effect_of_hostWrites {x : HostTx} {r : Reg} {v : Word} (hx : HostWrites x r v) {s t : State}
    (h : hostWriteReg r v s = .next t) : Effect x s t := by
  cases hf : s.fault with
  | true =>
    rw [hostWriteReg_rejected hf] at h
    cases h
    exact .answered (.inr hf)
  | false =>
    rw [hostWriteReg_accepted hf] at h
    cases h
    exact .hostWrote hf hx

theorem effect_of_hostReads {x : HostTx} {r : Reg} (hx : HostReads x r) {s t : State}
    (h : hostReadReg r s = .next t) : Effect x s t := by
  cases hw : s.isWritten r with
  | true =>
    rw [hostReadReg_of_written hw] at h
    cases h
    exact .answered (.inl (not_issues_of_hostReads hx))
  | false =>
    rw [hostReadReg_of_unwritten hw] at h
    cases h
    exact .readEnded hx hw

theorem effect_of_transact {x : HostTx} {s t : State} (hm : s.modelFault = none) (h : transact x s = .next t) :
    Effect x s t := by
  rcases transaction_kinds x with rfl | ⟨w, hx⟩ | ⟨r, v, hx⟩ | ⟨r, hx⟩ | ⟨hx, a, ha⟩
  · cases h
    exact .reset rfl
  · exact effect_of_issues hx hm (transact_of_issues hx s ▸ h)
  · exact effect_of_hostWrites hx (transact_of_hostWrites hx s ▸ h)
  · exact effect_of_hostReads hx (transact_of_hostReads hx s ▸ h)
  · rw [ha] at h
    cases h
    exact .answered (.inl hx)

/-- A step that answers a next state has done what the next transaction does. -/
theorem transact_of_step {s t : State} {x : HostTx} {rest : List HostTx} (hp : s.pending = x :: rest)
    (h : step s = .next t) : transact x (taken s) = .next t := by
  rw [← step_of_pending (modelFault_of_step h) hp, h]

theorem effect_of_step {s t : State} {x : HostTx} {rest : List HostTx} (hp : s.pending = x :: rest)
    (h : step s = .next t) : Effect x (taken s) t :=
  effect_of_transact (by simpa using modelFault_of_step h) (transact_of_step hp h)

/-- A step waits for the host, or has the effect of the next transaction. -/
theorem step_cases {s t : State} (h : step s = .next t) :
    (s.pending = [] ∧ t = s) ∨ ∃ x rest, s.pending = x :: rest ∧ Effect x (taken s) t := by
  cases hp : s.pending with
  | nil =>
    rw [step_idle (modelFault_of_step h) hp] at h
    cases h
    exact .inl ⟨rfl, rfl⟩
  | cons x rest => exact .inr ⟨x, rest, rfl, effect_of_step hp h⟩

/-- The fault record after a transaction: kept, cleared by Reset, or entered by the command word the transaction issues. -/
theorem Effect.faultRecord {x : HostTx} {s t : State} (h : Effect x s t) :
    (t.fault = s.fault ∧ t.cause = s.cause ∧ t.faultInsn = s.faultInsn) ∨
    (x = .reset ∧ t.fault = false ∧ t.cause = 0 ∧ t.faultInsn = 0) ∨
    (s.fault = false ∧ t.fault = true ∧ Issues x t.faultInsn ∧
      ((t.cause = causeIllegal ∧ ∃ e, decode t.faultInsn = .error e) ∨
        (t.cause = causeRange ∧ ∃ i, decode t.faultInsn = .ok i))) := by
  cases h with
  | reset hx => exact .inr (.inl ⟨hx, rfl, rfl, rfl⟩)
  | illegal hf hx hd => exact .inr (.inr ⟨hf, rfl, hx, .inl ⟨rfl, _, hd⟩⟩)
  | range hf hx hd => exact .inr (.inr ⟨hf, rfl, hx, .inr ⟨rfl, _, hd⟩⟩)
  | hostWrote | wrote | commandEnded | readEnded | answered => exact .inl ⟨rfl, rfl, rfl⟩

/-- A register after a transaction: kept, left to Reset, or written by the host or by a command whose RD it is. -/
theorem Effect.register {x : HostTx} {s t : State} (h : Effect x s t) (r : Reg) :
    (t.readB r = s.readB r ∧ t.isWritten r = s.isWritten r) ∨ x = .reset ∨
    (s.fault = false ∧ t.isWritten r = true ∧
      ((∃ v, HostWrites x r v ∧ t.readB r = v) ∨ ∃ w i, Issues x w ∧ decode w = .ok i ∧ destOf i = r)) := by
  cases h with
  | reset hx => exact .inr (.inl hx)
  | @hostWrote q v hf hx =>
    by_cases hr : r = q
    · subst hr
      exact .inr (.inr ⟨hf, by simp, .inl ⟨v, hx, by simp⟩⟩)
    · exact .inl ⟨s.writeB_readB_ne v hr, s.writeB_isWritten_ne v hr⟩
  | @wrote w i v hf hx hd =>
    by_cases hr : r = destOf i
    · subst hr
      exact .inr (.inr ⟨hf, by simp, .inr ⟨w, i, hx, hd, rfl⟩⟩)
    · exact .inl ⟨s.writeB_readB_ne v hr, s.writeB_isWritten_ne v hr⟩
  | illegal | range | commandEnded | readEnded | answered => exact .inl ⟨rfl, rfl⟩

/-- The position after a transaction of a run that goes on: one further exactly for an accepted command that completed. -/
theorem Effect.position {x : HostTx} {s t : State} (h : Effect x s t) (hm : s.modelFault = none) :
    (t.position = s.position + 1 ∧ (∃ w, Issues x w) ∧ s.fault = false ∧ t.modelFault = none) ∨
    (t.position = s.position ∧ ((∀ w, ¬ Issues x w) ∨ s.fault = true ∨ t.modelFault ≠ none)) := by
  cases h with
  | reset hx => exact .inr ⟨rfl, .inl (hx ▸ not_issues_reset)⟩
  | hostWrote _ hx => exact .inr ⟨rfl, .inl (not_issues_of_hostWrites hx)⟩
  | illegal hf hx => exact .inl ⟨rfl, ⟨_, hx⟩, hf, hm⟩
  | wrote hf hx => exact .inl ⟨rfl, ⟨_, hx⟩, hf, hm⟩
  | range hf hx => exact .inl ⟨rfl, ⟨_, hx⟩, hf, hm⟩
  | commandEnded | readEnded => exact .inr ⟨rfl, .inr (.inr (by simp))⟩
  | answered hx => exact .inr ⟨rfl, hx.imp_right .inl⟩

end Sys2Proof.Machine
end

section
/-! What unwritten registers hold never shows (logs 3, 4): every operation takes states that differ only there to states
that differ only there. -/

namespace Sys2Proof.Machine

section
variable {s s' : State} (h : SameButUnwritten s s')
include h

theorem SameButUnwritten.isWritten_eq (r : Reg) : s'.isWritten r = s.isWritten r := by
  rw [State.isWritten, h.written, State.isWritten]

theorem SameButUnwritten.firstUnwritten_eq (rs : List Reg) : firstUnwritten s' rs = firstUnwritten s rs := by
  simp only [firstUnwritten, h.isWritten_eq]

theorem SameButUnwritten.map_readB_eq {rs : List Reg} (hr : Readable s rs) : rs.map s'.readB = rs.map s.readB :=
  List.map_congr_left fun r hmem => h.boards r (hr r hmem)

theorem SameButUnwritten.status_eq : s'.status = s.status := by
  rw [State.status, h.rest.fault, h.rest.cause, State.status]

theorem SameButUnwritten.faultInsnWord_eq : s'.faultInsnWord = s.faultInsnWord := by
  rw [State.faultInsnWord, h.rest.faultInsn, State.faultInsnWord]

theorem SameButUnwritten.reply (a : Answer) : SameButUnwritten (s.reply a) (s'.reply a) :=
  ⟨h.written, h.boards, h.model, { h.rest with answers := by simp [h.rest.answers] }⟩

theorem SameButUnwritten.complete : SameButUnwritten s.complete s'.complete :=
  ⟨h.written, h.boards, h.model,
    { h.rest with answers := by simp [h.rest.answers], position := by simp [h.rest.position] }⟩

theorem SameButUnwritten.finish : SameButUnwritten s.finish s'.finish := by
  cases hm : s.modelFault with
  | none =>
    rw [State.finish_of_none hm, State.finish_of_none (h.model.trans hm)]
    exact h.complete
  | some f =>
    rw [State.finish_of_some hm, State.finish_of_some (h.model.trans hm)]
    exact h

theorem SameButUnwritten.endRun (r : Reg) : SameButUnwritten (s.endRun r) (s'.endRun r) :=
  ⟨h.written, h.boards, rfl, { h.rest with }⟩

theorem SameButUnwritten.enterFault (c : BitVec 8) (w : CmdWord) :
    SameButUnwritten (s.enterFault c w) (s'.enterFault c w) :=
  ⟨h.written, h.boards, h.model, { h.rest with fault := rfl, cause := rfl, faultInsn := rfl }⟩

theorem SameButUnwritten.writeB (r : Reg) (v : Word) : SameButUnwritten (s.writeB r v) (s'.writeB r v) := by
  refine ⟨by simp [h.written], fun q hq => ?_, h.model, { h.rest with }⟩
  by_cases hqr : q = r
  · rw [hqr, State.writeB_readB_self, State.writeB_readB_self]
  · rw [State.writeB_isWritten_ne s v hqr] at hq
    rw [State.writeB_readB_ne s' v hqr, State.writeB_readB_ne s v hqr, h.boards q hq]

/-- No register is written after Reset, so none has to agree. -/
theorem SameButUnwritten.applyReset : SameButUnwritten s.applyReset s'.applyReset := by
  obtain ⟨-, -, -, hposition, hpending, hanswers, hfree⟩ := h.rest
  refine ⟨by simp, by simp, by simp [h.model], ?_⟩
  constructor <;> simp [hposition, hpending, hanswers, hfree]

theorem SameButUnwritten.taken : SameButUnwritten (taken s) (taken s') :=
  ⟨h.written, h.boards, h.model, { h.rest with pending := by simp [h.rest.pending] }⟩

end

/-- Two outcomes that go on, to states that differ only in what unwritten registers hold. -/
def NextAlike (p q : Result) : Prop := ∃ t t', p = .next t ∧ q = .next t' ∧ SameButUnwritten t t'

theorem nextAlike_next {t t' : State} (h : SameButUnwritten t t') : NextAlike (.next t) (.next t') :=
  ⟨t, t', rfl, rfl, h⟩

theorem NextAlike.onNext_finish {p q : Result} (h : NextAlike p q) :
    NextAlike (onNext State.finish p) (onNext State.finish q) := by
  obtain ⟨t, t', rfl, rfl, ht⟩ := h
  exact nextAlike_next ht.finish

section
variable {s s' : State} (h : SameButUnwritten s s')
include h

/-- The reads end both runs at the same register, or only written registers are read. -/
theorem afterReads_alike (rs : List Reg) {k k' : Result} (hk : Readable s rs → NextAlike k k') :
    NextAlike (afterReads rs s k) (afterReads rs s' k') := by
  cases hu : firstUnwritten s rs with
  | some r =>
    rw [afterReads_of_unwritten hu, afterReads_of_unwritten ((h.firstUnwritten_eq rs).trans hu)]
    exact nextAlike_next (h.endRun r)
  | none =>
    have hu' := (h.firstUnwritten_eq rs).trans hu
    rw [afterReads_of_readable (firstUnwritten_eq_none.mp hu), afterReads_of_readable (firstUnwritten_eq_none.mp hu')]
    exact hk (firstUnwritten_eq_none.mp hu)

theorem retire_alike (cmd : CmdWord) (rd : Reg) (r : Option Word) : NextAlike (retire cmd rd r s) (retire cmd rd r s') := by
  cases r with
  | some v => exact nextAlike_next (h.writeB rd v)
  | none => exact nextAlike_next (h.enterFault causeRange cmd)

theorem exec_alike (i : Instr) : NextAlike (exec i s) (exec i s') := by
  obtain ⟨f, hf⟩ := exec_readsThenRetires i
  rw [hf, hf]
  refine afterReads_alike h _ fun hr => ?_
  rw [h.map_readB_eq hr]
  exact retire_alike h _ _ _

theorem issue_alike (w : CmdWord) : NextAlike (issue w s) (issue w s') := by
  cases hf : s.fault with
  | true =>
    rw [issue_rejected hf, issue_rejected (h.rest.fault.trans hf)]
    exact nextAlike_next (h.reply _)
  | false =>
    have hf' := h.rest.fault.trans hf
    cases hd : decode w with
    | error e =>
      rw [issue_illegal hf hd, issue_illegal hf' hd]
      exact nextAlike_next (h.enterFault _ _).complete
    | ok i =>
      rw [issue_legal hf hd, issue_legal hf' hd]
      exact (exec_alike h i).onNext_finish

theorem hostWriteReg_alike (r : Reg) (v : Word) : NextAlike (hostWriteReg r v s) (hostWriteReg r v s') := by
  cases hf : s.fault with
  | true =>
    rw [hostWriteReg_rejected hf, hostWriteReg_rejected (h.rest.fault.trans hf)]
    exact nextAlike_next (h.reply _)
  | false =>
    rw [hostWriteReg_accepted hf, hostWriteReg_accepted (h.rest.fault.trans hf)]
    exact nextAlike_next ((h.writeB r v).reply _)

theorem hostReadReg_alike (r : Reg) : NextAlike (hostReadReg r s) (hostReadReg r s') :=
  afterReads_alike h [r] fun hr => by
    rw [h.boards r (hr r (List.mem_singleton.mpr rfl))]
    exact nextAlike_next (h.reply _)

theorem transact_alike (x : HostTx) : NextAlike (transact x s) (transact x s') := by
  rcases transaction_kinds x with rfl | ⟨w, hx⟩ | ⟨r, v, hx⟩ | ⟨r, hx⟩ | ⟨-, a, ha⟩
  · exact nextAlike_next (h.applyReset.reply _)
  · rw [transact_of_issues hx, transact_of_issues hx]
    exact issue_alike h w
  · rw [transact_of_hostWrites hx, transact_of_hostWrites hx]
    exact hostWriteReg_alike h r v
  · rw [transact_of_hostReads hx, transact_of_hostReads hx]
    exact hostReadReg_alike h r
  · rw [ha, ha, h.status_eq, h.faultInsnWord_eq]
    exact nextAlike_next (h.reply _)

theorem step_alike (hm : s.modelFault = none) : NextAlike (step s) (step s') := by
  have hm' := h.model.trans hm
  cases hp : s.pending with
  | nil =>
    rw [step_idle hm hp, step_idle hm' (h.rest.pending.trans hp)]
    exact nextAlike_next h
  | cons x rest =>
    rw [step_of_pending hm hp, step_of_pending hm' (h.rest.pending.trans hp)]
    exact transact_alike h.taken x

end

end Sys2Proof.Machine
end

section
/-! STATUS and FAULT_INSN as the host reads them (R26, R27), and transactions of which one may stand for another (R28). -/

namespace Sys2Proof.Machine

/-- STATUS bit by bit (R26). -/
theorem status_getLsbD (s : State) (k : Nat) : s.status.getLsbD k =
    (decide (k = 0) && s.fault || (decide (k < 64) && !decide (k < 8) && s.cause.getLsbD (k - 8))) := by
  simp only [State.status, BitVec.getLsbD_or, BitVec.getLsbD_setWidth, BitVec.getLsbD_shiftLeft, BitVec.getLsbD_ofBool]
  by_cases h : k < 64
  · have hc : k - 8 < 64 := by omega
    simp [h, hc]
  · have h0 : k ≠ 0 := by omega
    simp [h, h0]

theorem status_getLsbD_zero (s : State) : s.status.getLsbD 0 = s.fault := by
  rw [status_getLsbD]
  simp

theorem status_extract_cause (s : State) : s.status.extractLsb' 8 8 = s.cause := by
  ext k hk
  have hin : 8 + k < 64 := by omega
  rw [BitVec.getElem_extractLsb', status_getLsbD]
  simp [BitVec.getLsbD_eq_getElem hk, hin]

theorem faultInsnWord_setWidth (s : State) : s.faultInsnWord.setWidth 32 = s.faultInsn := by
  simp [State.faultInsnWord]

theorem faultInsnWord_getLsbD (s : State) {k : Nat} (h : 32 ≤ k) : s.faultInsnWord.getLsbD k = false := by
  rw [State.faultInsnWord, BitVec.getLsbD_setWidth, BitVec.getLsbD_of_ge _ _ h, Bool.and_false]

theorem status_eq_zero {s : State} (hf : s.fault = false) (hc : s.cause = 0) : s.status = 0 := by
  simp [State.status, hf, hc]

theorem faultInsnWord_eq_zero {s : State} (h : s.faultInsn = 0) : s.faultInsnWord = 0 := by
  simp [State.faultInsnWord, h]

theorem unitKept_taken_reply (s : State) (a : Answer) : UnitKept s ((taken s).reply a) := ⟨rfl, rfl, rfl, rfl, rfl⟩

/-- A next transaction that acts like another steps like it. -/
theorem step_congr_transaction {s : State} {x y : HostTx} {rest : List HostTx} (hp : s.pending = x :: rest)
    (hxy : ∀ u, transact x u = transact y u) : step s = step { s with pending := y :: rest } := by
  rcases Option.eq_none_or_eq_some s.modelFault with hm | ⟨f, hm⟩
  · rw [step_of_pending hm hp, step_of_pending (s := { s with pending := y :: rest }) hm rfl, hxy]
    simp only [taken, hp, List.tail_cons]
  · rw [step_ended hm, step_ended (s := { s with pending := y :: rest }) hm]

end Sys2Proof.Machine

namespace Sys2Proof

open Sys2Proof.Machine

/-- Settles O36: a transaction keeps, clears or enters the record, and a word that raised RANGE is a legal one. -/
theorem everyStepKeepsTheFaultRecord : Obligations.EveryStepKeepsTheFaultRecord := by
  intro s t hs hstep
  obtain ⟨-, rfl⟩ | ⟨x, rest, -, heffect⟩ := step_cases hstep
  · exact hs
  obtain ⟨hf, hc, hi⟩ | ⟨-, hf, hc, hi⟩ | ⟨-, hf, -, ⟨hc, hd⟩ | ⟨hc, hd⟩⟩ := heffect.faultRecord
  · rw [FaultRecord, hf, hc, hi]
    exact hs
  · exact .inl ⟨hf, hc, hi⟩
  · exact .inr (.inl ⟨hf, hc, hd⟩)
  · exact .inr (.inr ⟨hf, hc, hd⟩)

/-- Settles O48: each operation of a step takes alike states to alike states. -/
theorem unwrittenValuesNeverShow : Obligations.UnwrittenValuesNeverShow := by
  intro s s' t h hstep
  obtain ⟨u, t', hu, ht', halike⟩ := step_alike h (modelFault_of_step hstep)
  cases hstep.symm.trans hu
  exact ⟨t', ht', halike⟩

/-- Settles O45: what a transaction does to one register. -/
theorem registersChangeOnlyWhenWritten : Obligations.RegistersChangeOnlyWhenWritten := by
  intro s t r hstep hne
  obtain ⟨-, rfl⟩ | ⟨x, rest, hp, heffect⟩ := step_cases hstep
  · exact absurd rfl hne
  refine ⟨x, rest, hp, ?_⟩
  obtain ⟨hkept, -⟩ | hreset | ⟨hf, hw, hhost | hcommand⟩ := heffect.register r
  · exact absurd hkept hne
  · exact .inl hreset
  · exact .inr (.inl ⟨hf, hw, hhost⟩)
  · exact .inr (.inr ⟨hf, hw, hcommand⟩)

/-- Settles O46: the two clauses are the two sides of what a transaction does to the position. -/
theorem positionCountsCompletedCommands : Obligations.PositionCountsCompletedCommands := by
  intro s t x rest hp hstep
  obtain ⟨hpos, ⟨w, hx⟩, hf, hm⟩ | ⟨hpos, hstays⟩ :=
    (effect_of_step hp hstep).position (by simpa using modelFault_of_step hstep)
  · refine ⟨fun _ _ _ => hpos, ?_⟩
    rintro (hno | hfault | hended)
    · exact absurd hx (hno w)
    · exact Bool.noConfusion (hf.symm.trans hfault)
    · exact absurd hm hended
  · refine ⟨?_, fun _ => hpos⟩
    rintro ⟨w, hx⟩ hf hm
    obtain hno | hfault | hended := hstays
    · exact absurd hx (hno w)
    · exact Bool.noConfusion (hf.symm.trans hfault)
    · exact absurd hm hended

/-- Settles O47: what a transaction does to a written bit, and the two outcomes of a host read. -/
theorem writtenBitsAndTheModelFaultRecord : Obligations.WrittenBitsAndTheModelFaultRecord := by
  refine ⟨fun s t r hstep hw hcleared => ?_, fun s x rest r hm hp hx => ?_, fun s f hm => step_ended hm⟩
  · obtain ⟨-, rfl⟩ | ⟨x, rest, hp, heffect⟩ := step_cases hstep
    · exact Bool.noConfusion (hw.symm.trans hcleared)
    obtain ⟨-, hkept⟩ | rfl | ⟨-, hset, -⟩ := heffect.register r
    · exact Bool.noConfusion (hw.symm.trans (hkept.symm.trans hcleared))
    · exact ⟨rest, hp⟩
    · exact Bool.noConfusion (hset.symm.trans hcleared)
  · rw [step_of_pending hm hp, transact_of_hostReads hx]
    exact ⟨fun hw => hostReadReg_of_written hw, fun hw =>
      ⟨_, hostReadReg_of_unwritten hw, rfl, ⟨rfl, rfl, rfl, rfl, rfl⟩, rfl, step_ended rfl⟩⟩

/-- Settles O38: STATUS and FAULT_INSN bit by bit, then what a transaction does to the fault record. -/
theorem statusAndFaultInsnRegisters : Obligations.StatusAndFaultInsnRegisters := by
  refine ⟨fun s => ⟨status_getLsbD_zero s, fun k h1 h7 => ?_, status_extract_cause s, fun k h16 => ?_,
    faultInsnWord_setWidth s, fun k h32 => faultInsnWord_getLsbD s h32, (status_getLsbD_zero s).symm⟩,
    fun s hs => ?_, ⟨rfl, rfl⟩, fun s t x rest hp hstep => ⟨?_, ?_, ?_, ?_⟩⟩
  · have h0 : k ≠ 0 := by omega
    have h8 : k < 8 := by omega
    simp [status_getLsbD, h0, h8]
  · have h0 : k ≠ 0 := by omega
    rw [status_getLsbD, BitVec.getLsbD_of_ge s.cause (k - 8) (by omega)]
    simp [h0]
  · rw [status_getLsbD_zero]
    obtain ⟨hf, hc, hi⟩ | ⟨hf, hc, -⟩ | ⟨hf, hc, -⟩ := hs
    · exact ⟨.inl hc, fun _ => ⟨status_eq_zero hf hc, faultInsnWord_eq_zero hi⟩⟩
    · exact ⟨.inr (.inl hc), fun h => Bool.noConfusion (h.symm.trans hf)⟩
    · exact ⟨.inr (.inr hc), fun h => Bool.noConfusion (h.symm.trans hf)⟩
  · rintro (rfl | rfl) <;> cases transact_of_step hp hstep <;> exact ⟨unitKept_taken_reply s _, rfl⟩
  · rintro (rfl | rfl) <;> cases transact_of_step hp hstep <;> exact ⟨unitKept_taken_reply s _, rfl⟩
  · rintro v (rfl | rfl) <;> cases transact_of_step hp hstep <;> exact unitKept_taken_reply s _
  · intro hchanged
    obtain ⟨hf, hc, hi⟩ | ⟨hx, -⟩ | ⟨hf, hf', hx, -⟩ := (effect_of_step hp hstep).faultRecord
    · refine absurd hchanged ?_
      simp [State.status, State.faultInsnWord, hf, hc, hi]
    · exact .inl hx
    · exact .inr ⟨hf, hf', t.faultInsn, hx, rfl⟩

/-- Settles O42: R29's map address by address. -/
theorem portAddressesNameTheirRegisters : Obligations.PortAddressesNameTheirRegisters := by
  intro s a v
  refine ⟨fun r ha => ⟨?_, ?_⟩, ?_, ?_, ?_, fun ha => ?_⟩
  · exact transact_of_hostReads (.inr ⟨a, rfl, ha⟩) s
  · exact transact_of_hostWrites (.inr ⟨a, rfl, ha⟩) s
  · rintro rfl
    exact ⟨rfl, rfl⟩
  · rintro rfl
    exact ⟨rfl, rfl⟩
  · rintro rfl
    exact ⟨rfl, rfl⟩
  · exact ⟨transact_portRead_unmapped ha s, transact_portWrite_unmapped ha v s⟩

/-- Settles O43: a CMD write acts as Issue of its low word. -/
theorem cmdPortIssuesTheLowWord : Obligations.CmdPortIssuesTheLowWord := by
  intro s rest v
  have issuesLowWord (u : Word) (hu : u.setWidth 32 = v.setWidth 32) (t : State) :
      transact (.portWrite 0x12 u) t = issue (v.setWidth 32) t := transact_of_issues (.inr ⟨u, rfl, hu⟩) t
  refine ⟨fun hp => ?_, fun u hu hp => ?_, fun hm hp => ?_⟩
  · exact step_congr_transaction hp (issuesLowWord v rfl)
  · exact step_congr_transaction hp fun t => by rw [issuesLowWord v rfl, issuesLowWord u hu]
  · rw [step_of_pending hm hp]
    rfl

end Sys2Proof
end

section
/-! What a host read answers (R47): the value it answers depends on the unit alone, and the read changes nothing of the
unit, so the same read answers the same value again. -/

namespace Sys2Proof.Machine

theorem UnitKept.isWritten_eq {s t : State} (h : UnitKept s t) (r : Reg) : t.isWritten r = s.isWritten r := by
  simp only [State.isWritten, h.written]

theorem UnitKept.readB_eq {s t : State} (h : UnitKept s t) (r : Reg) : t.readB r = s.readB r := by
  simp only [State.readB, h.b]

theorem UnitKept.status_eq {s t : State} (h : UnitKept s t) : t.status = s.status := by
  simp only [State.status, h.fault, h.cause]

theorem UnitKept.faultInsnWord_eq {s t : State} (h : UnitKept s t) : t.faultInsnWord = s.faultInsnWord := by
  simp only [State.faultInsnWord, h.faultInsn]

theorem unitKept_reply (s : State) (a : Answer) : UnitKept s (s.reply a) := ⟨rfl, rfl, rfl, rfl, rfl⟩

/-- Transaction `x` only answers `value`, which the unit alone determines; or it ends the run, reading an unwritten
register (R22). -/
structure OnlyReads (x : HostTx) (value : State → Word) : Prop where
  value_eq : ∀ s t, UnitKept s t → value t = value s
  outcome : ∀ s, transact x s = .next (s.reply (.value (value s))) ∨
    ∃ r, HostReads x r ∧ s.isWritten r = false ∧ transact x s = .next (s.endRun r)

theorem onlyReads_of_hostReads {x : HostTx} {r : Reg} (h : HostReads x r) : OnlyReads x (·.readB r) := by
  refine ⟨fun s t hst => hst.readB_eq r, fun s => ?_⟩
  rw [transact_of_hostReads h]
  cases hw : s.isWritten r with
  | true => exact .inl (hostReadReg_of_written hw)
  | false => exact .inr ⟨r, h, hw, hostReadReg_of_unwritten hw⟩

theorem onlyReads_of_status {x : HostTx} (h : ∀ s, transact x s = hostReadStatus s) : OnlyReads x State.status :=
  ⟨fun _ _ hst => hst.status_eq, fun s => .inl (h s)⟩

theorem onlyReads_of_faultInsn {x : HostTx} (h : ∀ s, transact x s = hostReadFaultInsn s) :
    OnlyReads x State.faultInsnWord :=
  ⟨fun _ _ hst => hst.faultInsnWord_eq, fun s => .inl (h s)⟩

theorem onlyReads_of_zero {x : HostTx} (h : ∀ s, transact x s = .next (s.reply (.value 0))) : OnlyReads x fun _ => 0 :=
  ⟨fun _ _ _ => rfl, fun s => .inl (h s)⟩

/-- Every read transaction, and every port read by its address (R29), only reads. -/
theorem onlyReads_of_isHostRead {x : HostTx} (h : isHostRead x = true) : ∃ value, OnlyReads x value := by
  cases x with
  | reset | issue | writeReg | portWrite => cases h
  | readReg r => exact ⟨_, onlyReads_of_hostReads (.inl rfl)⟩
  | readStatus => exact ⟨_, onlyReads_of_status fun _ => rfl⟩
  | readFaultInsn => exact ⟨_, onlyReads_of_faultInsn fun _ => rfl⟩
  | portRead a =>
    rcases port_address_cases a with ⟨r, ha⟩ | rfl | rfl | rfl | ha
    · exact ⟨_, onlyReads_of_hostReads (.inr ⟨a, rfl, ha⟩)⟩
    · exact ⟨_, onlyReads_of_status fun _ => rfl⟩
    · exact ⟨_, onlyReads_of_faultInsn fun _ => rfl⟩
    · exact ⟨_, onlyReads_of_zero fun _ => rfl⟩
    · exact ⟨_, onlyReads_of_zero (transact_portRead_unmapped ha)⟩

/-- What a host read leaves alone. -/
theorem OnlyReads.kept {x : HostTx} {value : State → Word} (hx : OnlyReads x value) {s t : State}
    (h : transact x s = .next t) : UnitKept s t ∧ t.pending = s.pending ∧ t.position = s.position := by
  rcases hx.outcome s with he | ⟨r, -, -, he⟩ <;> cases he.symm.trans h
  · exact ⟨unitKept_reply s _, rfl, rfl⟩
  · obtain ⟨-, -, hkept⟩ := endRun_kept s r
    exact ⟨hkept, rfl, rfl⟩

/-- A host read that meets no unwritten register answers its value. -/
theorem OnlyReads.answers {x : HostTx} {value : State → Word} (hx : OnlyReads x value) {s t : State}
    (hw : ∀ r, HostReads x r → s.isWritten r = true) (h : transact x s = .next t) :
    t.answers = s.answers ++ [.value (value s)] := by
  rcases hx.outcome s with he | ⟨r, hr, hunwritten, -⟩
  · cases he.symm.trans h
    rfl
  · exact Bool.noConfusion ((hw r hr).symm.trans hunwritten)

/-- STATUS, FAULT_INSN and the unmapped addresses ignore a write (R26, R27, R29). -/
theorem transact_portWrite_ignored {a : BitVec 8} (hlow : 0x10 ≤ a.toNat) (hcmd : a.toNat ≠ 0x12) (v : Word)
    (s : State) : transact (.portWrite a v) s = .next (s.reply .ok) := by
  rcases port_address_cases a with ⟨r, ha⟩ | rfl | rfl | rfl | ha
  · have hr := r.isLt
    omega
  · rfl
  · rfl
  · exact absurd rfl hcmd
  · exact transact_portWrite_unmapped ha v s

end Sys2Proof.Machine

namespace Sys2Proof

open Sys2Proof.Machine

/-- Settles O44: a host read keeps the unit, and the unit alone determines what the read answers. -/
theorem hostReadsHaveNoSideEffect : Obligations.HostReadsHaveNoSideEffect := by
  refine ⟨fun s t u x hread ht hu => ?_, fun s a v hlow hcmd => transact_portWrite_ignored hlow hcmd v s,
    fun s v => transact_of_issues (.inr ⟨v, rfl, rfl⟩) s⟩
  obtain ⟨value, hx⟩ := onlyReads_of_isHostRead hread
  obtain ⟨hst, hpending, hposition⟩ := hx.kept ht
  obtain ⟨htu, -, -⟩ := hx.kept hu
  refine ⟨hst, htu, hpending, hposition, fun hw => ⟨value s, hx.answers hw ht, ?_⟩⟩
  have again := hx.answers (fun r hr => (hst.isWritten_eq r).trans (hw r hr)) hu
  rwa [hx.value_eq s t hst] at again

end Sys2Proof
end

section
/-! The bytes of a word are its ranks (R42), and a word is joined from its bytes in either bus order (R44). -/

namespace Sys2Proof.Machine

theorem byteOf_getLsbD (v : Word) (k : Nat) {f : Nat} (hf : f < 8) :
    (byteOf v k).getLsbD f = v.getLsbD (8 * k + f) := by
  simp [byteOf, hf]

theorem busBytes_little_getElem? (v : Word) {k : Nat} (hk : k < 8) : (busBytes .little v)[k]? = some (byteOf v k) := by
  simp [busBytes, hk]

/-- Bit `q` of a joined word is bit `q % 8` of byte `q / 8`. -/
theorem joinBytes_getLsbD (bs : List (BitVec 8)) {q : Nat} (hq : q < 64) :
    (joinBytes bs).getLsbD q = (bs[q / 8]?.getD 0).getLsbD (q % 8) := by
  induction bs generalizing q with
  | nil => simp [joinBytes]
  | cons x xs ih =>
    rw [joinBytes, BitVec.getLsbD_or, BitVec.getLsbD_setWidth, BitVec.getLsbD_shiftLeft]
    by_cases h8 : q < 8
    · simp [h8, hq, Nat.div_eq_of_lt h8, Nat.mod_eq_of_lt h8]
    · have hdiv : q / 8 = (q - 8) / 8 + 1 := by omega
      have hmod : q % 8 = (q - 8) % 8 := by omega
      rw [ih (by omega), hdiv, hmod, BitVec.getLsbD_of_ge x q (by omega)]
      simp [h8, hq]

/-- Joining a word's bytes, byte 0 first, gives the word. -/
theorem joinBytes_busBytes_little (v : Word) : joinBytes (busBytes .little v) = v := by
  refine BitVec.eq_of_getLsbD_eq fun q hq => ?_
  rw [joinBytes_getLsbD _ hq, busBytes_little_getElem? v (by omega), Option.getD_some, byteOf_getLsbD v _ (by omega),
    Nat.div_add_mod]

/-- The other order carries the same bytes, the last first. -/
theorem busBytes_big_eq_reverse (v : Word) : busBytes .big v = (busBytes .little v).reverse := rfl

theorem wordOfBus_busBytes (o : ByteOrder) (v : Word) : wordOfBus o (busBytes o v) = v := by
  cases o with
  | little => exact joinBytes_busBytes_little v
  | big => rw [wordOfBus, busBytes_big_eq_reverse, List.reverse_reverse, joinBytes_busBytes_little]

end Sys2Proof.Machine

namespace Sys2Proof

open Sys2Proof.Machine

/-- Settles O52: bytes bit by bit, and the round trip through the bus from the bits of a joined word. -/
theorem bytesOfAWordAreItsRanks : Obligations.BytesOfAWordAreItsRanks :=
  ⟨rfl, fun v => ⟨fun k _ _ hf => byteOf_getLsbD v k hf, fun _ hk => busBytes_little_getElem? v hk,
    fun o => wordOfBus_busBytes o v⟩⟩

end Sys2Proof
end

section
/-! Words built from fields decode to the instruction of their opcode (R61, R64): one lemma per kind of format, then the
round trip over all 42 instructions. -/

namespace Sys2Proof

open Sys2Proof.Machine

section
variable {op : Nat} (hop : op < 256)
include hop

/-- Format R, for an opcode that `decode` gives it. -/
theorem encodedR_of_decode {mk : Reg → Reg → Reg → Instr} (hd : ∀ w, opField w = op → decode w = decodeR w mk) :
    EncodedR op mk := by
  intro rd rs1 rs2 imm himm
  rw [hd _ (opField_cmdWord hop himm rd rs1 rs2), decodeR, rdField_cmdWord hop himm, rs1Field_cmdWord hop himm,
    rs2Field_cmdWord hop himm, immHigh_cmdWord hop himm (by decide)]
  simp [ifZero]

/-- Format U. -/
theorem encodedU_of_decode {mk : Reg → Reg → Instr} (hd : ∀ w, opField w = op → decode w = decodeU w mk) :
    EncodedU op mk := by
  intro rd rs1 rs2 imm himm
  rw [hd _ (opField_cmdWord hop himm rd rs1 rs2), decodeU, rdField_cmdWord hop himm, rs1Field_cmdWord hop himm,
    rs2Bits_cmdWord hop himm, immHigh_cmdWord hop himm (by decide)]
  simp [ifZero]

/-- Formats I7 (`hi = 6`) and I6 (`hi = 5`). -/
theorem encodedI_of_decode (hi : Nat) (hhi : hi ≤ 10) {mk : Reg → Reg → Nat → Instr}
    (hd : ∀ w, opField w = op → decode w =
      ifZero (bits w 15 12 == 0 && bits w 11 (hi + 1) == 0) (mk (rdField w) (rs1Field w) (bits w hi 0))) :
    EncodedI (2 ^ (hi + 1)) op mk := by
  intro rd rs1 rs2 imm himm
  rw [hd _ (opField_cmdWord hop himm rd rs1 rs2), rdField_cmdWord hop himm, rs1Field_cmdWord hop himm,
    rs2Bits_cmdWord hop himm, immHigh_cmdWord hop himm (by omega), immBits_cmdWord hop himm (by omega)]
  by_cases hlow : imm < 2 ^ (hi + 1)
  · simp [ifZero, hlow, Nat.mod_eq_of_lt hlow]
  · simp [ifZero, hlow]

/-- Formats C6 (`hi = 5`), C4 (`hi = 3`) and C3 (`hi = 2`). -/
theorem encodedC_of_decode (hi : Nat) (hhi : hi ≤ 10) {mk : Reg → Nat → Instr}
    (hd : ∀ w, opField w = op → decode w =
      ifZero (bits w 19 16 == 0 && bits w 15 12 == 0 && bits w 11 (hi + 1) == 0) (mk (rdField w) (bits w hi 0))) :
    EncodedC (2 ^ (hi + 1)) op mk := by
  intro rd rs1 rs2 imm himm
  rw [hd _ (opField_cmdWord hop himm rd rs1 rs2), rdField_cmdWord hop himm, rs1Bits_cmdWord hop himm,
    rs2Bits_cmdWord hop himm, immHigh_cmdWord hop himm (by omega), immBits_cmdWord hop himm (by omega)]
  by_cases hlow : imm < 2 ^ (hi + 1)
  · simp [ifZero, hlow, Nat.mod_eq_of_lt hlow]
  · simp [ifZero, hlow]

end

/-! ### The word an instruction's operands give (R61) -/

theorem Machine.EncodedR.decode_cmdWord {op : Nat} {mk : Reg → Reg → Reg → Instr} (h : EncodedR op mk) (rd rs1 rs2 : Reg) :
    decode (cmdWord op rd rs1 rs2 0) = .ok (mk rd rs1 rs2) := by
  rw [h rd rs1 rs2 0 (by decide), if_pos rfl]

theorem Machine.EncodedU.decode_cmdWord {op : Nat} {mk : Reg → Reg → Instr} (h : EncodedU op mk) (rd rs1 : Reg) :
    decode (cmdWord op rd rs1 0 0) = .ok (mk rd rs1) := by
  rw [h rd rs1 0 0 (by decide), if_pos ⟨rfl, rfl⟩]

theorem Machine.EncodedI.decode_cmdWord {bound op n : Nat} {mk : Reg → Reg → Nat → Instr} (h : EncodedI bound op mk)
    (hb : bound ≤ 4096) (hn : n < bound) (rd rs1 : Reg) : decode (cmdWord op rd rs1 0 n) = .ok (mk rd rs1 n) := by
  rw [h rd rs1 0 n (by omega), if_pos ⟨rfl, hn⟩]

theorem Machine.EncodedC.decode_cmdWord {bound op n : Nat} {mk : Reg → Nat → Instr} (h : EncodedC bound op mk)
    (hb : bound ≤ 4096) (hn : n < bound) (rd : Reg) : decode (cmdWord op rd 0 0 n) = .ok (mk rd n) := by
  rw [h rd 0 0 n (by omega), if_pos ⟨rfl, rfl, hn⟩]

/-- No operand is dropped: each instruction along the format of its opcode. -/
theorem decode_encode {i : Instr} (hwf : WellFormed i) : decode (encode i) = .ok i := by
  cases i with
  | and | or | xor | contains | fillN | fillNE | fillE | fillSE | fillS | fillSW | fillW | fillNW | atkN | atkNE | atkE
      | atkSE | atkS | atkSW | atkW | atkNW =>
    exact (encodedR_of_decode (by decide) fun w hop => by simp only [decode, hop]).decode_cmdWord _ _ _
  | not | sqr | isempty | shNE | shSE | shSW | shNW | popcnt | lsb | clrlsb =>
    exact (encodedU_of_decode (by decide) fun w hop => by simp only [decode, hop]).decode_cmdWord _ _
  | shl | shr | shN | shE | shS | shW =>
    exact (encodedI_of_decode (by decide) 6 (by decide) fun w hop => by simp only [decode, hop, decodeI7]).decode_cmdWord
      (by decide) (of_decide_eq_true hwf) _ _
  | containsi =>
    exact (encodedI_of_decode (by decide) 5 (by decide) fun w hop => by simp only [decode, hop, decodeI6]).decode_cmdWord
      (by decide) (of_decide_eq_true hwf) _ _
  | sq =>
    exact (encodedC_of_decode (by decide) 5 (by decide) fun w hop => by simp only [decode, hop, decodeC6]).decode_cmdWord
      (by decide) (of_decide_eq_true hwf) _
  | efiles | wfiles =>
    exact (encodedC_of_decode (by decide) 3 (by decide) fun w hop => by simp only [decode, hop, decodeC4]).decode_cmdWord
      (by decide) (of_decide_eq_true hwf) _
  | file | rank =>
    exact (encodedC_of_decode (by decide) 2 (by decide) fun w hop => by simp only [decode, hop, decodeC3]).decode_cmdWord
      (by decide) (of_decide_eq_true hwf) _

/-- Settles O1: format by format. -/
theorem decodeOfEncodeIsTheInstruction : Obligations.DecodeOfEncodeIsTheInstruction := fun _ => decode_encode

end Sys2Proof
end

section
/-! The decoder against the opcode table (R64, R65): it rejects an unassigned opcode, and otherwise checks the mask and match
of the opcode's row. Then the encoding obligations that rest on it. -/

namespace Sys2Proof

open Sys2Proof.Machine

/-! ### Fields bit by bit -/

theorem bits_testBit (w : CmdWord) (hi lo k : Nat) :
    (bits w hi lo).testBit k = (decide (k < hi + 1 - lo) && w.getLsbD (lo + k)) := by
  simp [bits, Nat.testBit_mod_two_pow, Nat.testBit_div_two_pow, BitVec.getLsbD, Nat.add_comm]

theorem bits_eq_zero_iff (w : CmdWord) (hi lo : Nat) :
    bits w hi lo = 0 ↔ ∀ k, lo ≤ k → k ≤ hi → w.getLsbD k = false := by
  constructor
  · intro h k hlo hhi
    have hk := bits_testBit w hi lo (k - lo)
    rw [h, Nat.zero_testBit, Nat.add_sub_cancel' hlo] at hk
    simpa [show k - lo < hi + 1 - lo by omega] using hk.symm
  · refine fun h => Nat.eq_of_testBit_eq fun k => ?_
    rw [bits_testBit, Nat.zero_testBit, Bool.and_eq_false_imp, decide_eq_true_eq]
    exact fun hk => h _ (by omega) (by omega)

/-- Two fields side by side are zero exactly if the one field they make up is. -/
theorem bits_eq_zero_join {w : CmdWord} {hi mid lo : Nat} (hlo : lo ≤ mid + 1) (hhi : mid ≤ hi) :
    (bits w hi (mid + 1) = 0 ∧ bits w mid lo = 0) ↔ bits w hi lo = 0 := by
  simp only [bits_eq_zero_iff]
  constructor
  · rintro ⟨hupper, hlower⟩ k hk hk'
    by_cases hmid : k ≤ mid
    · exact hlower k hk hmid
    · exact hupper k (by omega) hk'
  · exact fun h => ⟨fun k hk hk' => h k (by omega) hk', fun k hk hk' => h k hk (by omega)⟩

theorem opField_lt (w : CmdWord) : opField w < 256 := Nat.mod_lt _ (by decide)

theorem opField_testBit (w : CmdWord) (k : Nat) : (opField w).testBit k = w.getLsbD (24 + k) := by
  rw [opField, bits_testBit]
  by_cases hk : k < 8
  · simp [hk]
  · simp [hk, BitVec.getLsbD_of_ge w (24 + k) (by omega)]

/-! ### Mask and match (R65) -/

/-- The mask of a row whose format marks bits `hi..lo` with `0`: OP and those bits. -/
def reservedMask (hi lo : Nat) : CmdWord :=
  (BitVec.allOnes 8).setWidth 32 <<< 24 ||| (BitVec.allOnes (hi + 1 - lo)).setWidth 32 <<< lo

theorem reservedMask_getLsbD {k : Nat} (hk : k < 32) (hi lo : Nat) :
    (reservedMask hi lo).getLsbD k = decide (24 ≤ k ∨ lo ≤ k ∧ k ≤ hi) := by
  rw [Bool.eq_iff_iff]
  simp only [reservedMask, BitVec.getLsbD_or, BitVec.getLsbD_shiftLeft, BitVec.getLsbD_setWidth, BitVec.getLsbD_allOnes,
    Bool.or_eq_true, Bool.and_eq_true, Bool.not_eq_true', decide_eq_true_eq, decide_eq_false_iff_not]
  omega

theorem opWord_getLsbD (w : CmdWord) (k : Nat) :
    (cmdWord (opField w) 0 0 0 0).getLsbD k = (decide (24 ≤ k) && w.getLsbD k) := by
  rw [BitVec.getLsbD, cmdWord_toNat (opField_lt w) (by decide)]
  simp only [Fin.val_zero, Nat.zero_mul, Nat.add_zero, Nat.testBit_mul_two_pow, opField_testBit]
  by_cases h : 24 ≤ k
  · simp [h]
  · simp [h]

/-- A word has the match of its opcode's row exactly if the bits the row's format marks with `0` are zero. -/
theorem match_iff_reserved_zero {hi : Nat} (hhi : hi < 24) (w : CmdWord) (lo : Nat) :
    w &&& reservedMask hi lo = cmdWord (opField w) 0 0 0 0 ↔ bits w hi lo = 0 := by
  rw [bits_eq_zero_iff]
  constructor
  · intro h k hlo hk
    have hbit : (w &&& reservedMask hi lo).getLsbD k = _ := congrArg (·.getLsbD k) h
    rw [BitVec.getLsbD_and, reservedMask_getLsbD (by omega), opWord_getLsbD] at hbit
    simpa [show ¬ 24 ≤ k by omega, hlo, hk] using hbit
  · refine fun h => BitVec.eq_of_getLsbD_eq fun k hk => ?_
    rw [BitVec.getLsbD_and, reservedMask_getLsbD hk, opWord_getLsbD]
    by_cases hop : 24 ≤ k
    · simp [hop]
    · by_cases hres : lo ≤ k ∧ k ≤ hi
      · simp [hop, hres, h k hres.1 hres.2]
      · simp [hop, hres]

/-! ### The rows of the table (R64, R68) -/

theorem opField_and (w m : CmdWord) : opField (w &&& m) = opField w &&& opField m :=
  Nat.eq_of_testBit_eq fun k => by
    rw [opField_testBit, BitVec.getLsbD_and, Nat.testBit_and, opField_testBit, opField_testBit]

theorem opField_mask_of_row : ∀ row ∈ opcodeTable, opField row.mask = 255 := by decide

theorem opcodes_nodup : (opcodeTable.map fun row => opField row.pattern).Nodup := by decide

/-- A word that matches a row has the row's opcode, since every mask covers OP. -/
theorem opField_of_match {row : OpcodeRow} (hmem : row ∈ opcodeTable) {w : CmdWord} (h : w &&& row.mask = row.pattern) :
    opField row.pattern = opField w := by
  rw [← h, opField_and, opField_mask_of_row row hmem, Nat.and_two_pow_sub_one_eq_mod _ 8, Nat.mod_eq_of_lt (opField_lt w)]

theorem row_eq_of_opcode {r₁ r₂ : OpcodeRow} (h₁ : r₁ ∈ opcodeTable) (h₂ : r₂ ∈ opcodeTable)
    (h : opField r₁.pattern = opField r₂.pattern) : r₁ = r₂ := List.inj_on_of_nodup_map opcodes_nodup h₁ h₂ h

/-- Settles O4: a word that matches two rows has the opcode of both, and no two rows have one opcode. -/
theorem opcodeRowsNeverOverlap : Obligations.OpcodeRowsNeverOverlap :=
  ⟨rfl, fun _ h₁ _ h₂ _ m₁ m₂ => row_eq_of_opcode h₁ h₂ ((opField_of_match h₁ m₁).trans (opField_of_match h₂ m₂).symm)⟩

/-! ### The decoder in terms of the rows -/

/-- The OP values that R65 (a) lists as unassigned. -/
abbrev UnassignedOp (op : Nat) : Prop :=
  op = 0x00 ∨ op = 0x07 ∨ (0x0E ≤ op ∧ op ≤ 0x0F) ∨ (0x13 ≤ op ∧ op ≤ 0x1F) ∨ (0x38 ≤ op ∧ op ≤ 0x3F) ∨
    (0x43 ≤ op ∧ op ≤ 0xFF)

theorem not_unassignedOp_of_row : ∀ row ∈ opcodeTable, ¬ UnassignedOp (opField row.pattern) := by decide

/-- What a decoder may answer to a word: it rejects an unassigned opcode, or it checks the row of the opcode and has a
well-formed instruction for it. -/
def DecodeCase (w : CmdWord) (d : Except Reject Instr) : Prop :=
  (UnassignedOp (opField w) ∧ d = .error .unassignedOpcode) ∨
    ∃ row ∈ opcodeTable, ∃ i, opField row.pattern = opField w ∧ WellFormed i ∧ d = ifZero (w &&& row.mask == row.pattern) i

/-- A format that marks bits `hi..lo` with `0`, for an opcode that has a row with that mask. -/
theorem decodeCase_of_reserved {w : CmdWord} {op hi lo : Nat} (hop : opField w = op)
    (hrow : ∃ row ∈ opcodeTable, row.mask = reservedMask hi lo ∧ row.pattern = cmdWord op 0 0 0 0) (hhi : hi < 24)
    {i : Instr} (hwf : WellFormed i) {unused : Bool} (hunused : unused = true ↔ bits w hi lo = 0) :
    DecodeCase w (ifZero unused i) := by
  subst hop
  obtain ⟨row, hmem, hmask, hpat⟩ := hrow
  have hmatch : unused = (w &&& row.mask == row.pattern) := by
    rw [Bool.eq_iff_iff, hunused, beq_iff_eq, hmask, hpat, match_iff_reserved_zero hhi]
  refine .inr ⟨row, hmem, i, ?_, hwf, by rw [hmatch]⟩
  rw [hpat, opField_cmdWord (opField_lt w) (by decide)]

section
variable {w : CmdWord} {op : Nat} (hop : opField w = op)
include hop

theorem decodeCase_of_decodeR {mk : Reg → Reg → Reg → Instr} (hwf : ∀ rd rs1 rs2, WellFormed (mk rd rs1 rs2))
    (hrow : ∃ row ∈ opcodeTable, row.mask = reservedMask 11 0 ∧ row.pattern = cmdWord op 0 0 0 0) :
    DecodeCase w (decodeR w mk) :=
  decodeCase_of_reserved hop hrow (by decide) (hwf _ _ _) beq_iff_eq

theorem decodeCase_of_decodeU {mk : Reg → Reg → Instr} (hwf : ∀ rd rs1, WellFormed (mk rd rs1))
    (hrow : ∃ row ∈ opcodeTable, row.mask = reservedMask 15 0 ∧ row.pattern = cmdWord op 0 0 0 0) :
    DecodeCase w (decodeU w mk) := by
  refine decodeCase_of_reserved hop hrow (by decide) (hwf _ _) ?_
  rw [Bool.and_eq_true, beq_iff_eq, beq_iff_eq, bits_eq_zero_join (by decide) (by decide)]

/-- Formats I7 (`hi = 6`) and I6 (`hi = 5`). -/
theorem decodeCase_of_decodeI (hi : Nat) (hhi : hi ≤ 10) {mk : Reg → Reg → Nat → Instr}
    (hwf : ∀ rd rs1 n, n < 2 ^ (hi + 1) → WellFormed (mk rd rs1 n))
    (hrow : ∃ row ∈ opcodeTable, row.mask = reservedMask 15 (hi + 1) ∧ row.pattern = cmdWord op 0 0 0 0) :
    DecodeCase w (ifZero (bits w 15 12 == 0 && bits w 11 (hi + 1) == 0) (mk (rdField w) (rs1Field w) (bits w hi 0))) := by
  refine decodeCase_of_reserved hop hrow (by decide) (hwf _ _ _ (Nat.mod_lt _ (Nat.two_pow_pos _))) ?_
  rw [Bool.and_eq_true, beq_iff_eq, beq_iff_eq, bits_eq_zero_join (by omega) (by decide)]

/-- Formats C6 (`hi = 5`), C4 (`hi = 3`) and C3 (`hi = 2`). -/
theorem decodeCase_of_decodeC (hi : Nat) (hhi : hi ≤ 10) {mk : Reg → Nat → Instr}
    (hwf : ∀ rd n, n < 2 ^ (hi + 1) → WellFormed (mk rd n))
    (hrow : ∃ row ∈ opcodeTable, row.mask = reservedMask 19 (hi + 1) ∧ row.pattern = cmdWord op 0 0 0 0) :
    DecodeCase w
      (ifZero (bits w 19 16 == 0 && bits w 15 12 == 0 && bits w 11 (hi + 1) == 0) (mk (rdField w) (bits w hi 0))) := by
  refine decodeCase_of_reserved hop hrow (by decide) (hwf _ _ (Nat.mod_lt _ (Nat.two_pow_pos _))) ?_
  rw [Bool.and_eq_true, Bool.and_eq_true, beq_iff_eq, beq_iff_eq, beq_iff_eq, bits_eq_zero_join (by decide) (by decide),
    bits_eq_zero_join (by omega) (by decide)]

end

/-- What decoding a word can answer, along the opcode map of R64. -/
theorem decode_cases (w : CmdWord) : DecodeCase w (decode w) := by
  unfold decode
  split
  case h_1 hop | h_2 hop | h_3 hop | h_14 hop | h_24 hop | h_25 hop | h_26 hop | h_27 hop | h_28 hop | h_29 hop | h_30 hop
     | h_31 hop | h_32 hop | h_33 hop | h_34 hop | h_35 hop | h_36 hop | h_37 hop | h_38 hop | h_39 hop =>
    exact decodeCase_of_decodeR hop (fun _ _ _ => rfl) (by decide)
  case h_4 hop | h_8 hop | h_13 hop | h_17 hop | h_19 hop | h_21 hop | h_23 hop | h_40 hop | h_41 hop | h_42 hop =>
    exact decodeCase_of_decodeU hop (fun _ _ => rfl) (by decide)
  case h_5 hop | h_6 hop | h_16 hop | h_18 hop | h_20 hop | h_22 hop =>
    exact decodeCase_of_decodeI hop 6 (by decide) (fun _ _ _ => decide_eq_true) (by decide)
  case h_15 hop => exact decodeCase_of_decodeI hop 5 (by decide) (fun _ _ _ => decide_eq_true) (by decide)
  case h_7 hop => exact decodeCase_of_decodeC hop 5 (by decide) (fun _ _ => decide_eq_true) (by decide)
  case h_9 hop | h_10 hop => exact decodeCase_of_decodeC hop 2 (by decide) (fun _ _ => decide_eq_true) (by decide)
  case h_11 hop | h_12 hop => exact decodeCase_of_decodeC hop 3 (by decide) (fun _ _ => decide_eq_true) (by decide)
  case h_43 =>
    have hlt := opField_lt w
    refine .inl ⟨?_, rfl⟩
    simp only [imp_false] at *
    omega

/-! ### Legal and illegal words -/

theorem ifZero_ne_unassigned (unused : Bool) (i : Instr) : ifZero unused i ≠ .error .unassignedOpcode := by
  cases unused <;> simp [ifZero]

theorem wellFormed_of_decode {w : CmdWord} {i : Instr} (h : decode w = .ok i) : WellFormed i := by
  obtain ⟨-, hd⟩ | ⟨row, -, j, -, hwf, hd⟩ := decode_cases w
  · cases h.symm.trans hd
  · obtain ⟨-, rfl⟩ := ifZero_eq_ok.mp (hd.symm.trans h)
    exact hwf

/-- The legal words and the well-formed instructions stand for each other. -/
theorem decode_eq_ok_iff {w : CmdWord} {i : Instr} : decode w = .ok i ↔ WellFormed i ∧ encode i = w := by
  refine ⟨fun h => ⟨wellFormed_of_decode h, encode_of_decode h⟩, ?_⟩
  rintro ⟨hwf, rfl⟩
  exact decode_encode hwf

/-- Settles O2: decoding makes every immediate fit, and drops no bit. -/
theorem encodeOfDecodeIsTheWord : Obligations.EncodeOfDecodeIsTheWord := fun _ _ => decode_eq_ok_iff.mp

/-- Settles O5: each word is the encoding of the instruction beside it. -/
theorem wordsOfTheSpecDecode : Obligations.WordsOfTheSpecDecode := by
  simp only [Obligations.WordsOfTheSpecDecode, decode_eq_ok_iff]
  decide

/-- R65: legal is matching a row. -/
theorem exists_decode_eq_ok_iff (w : CmdWord) :
    (∃ i, decode w = .ok i) ↔ ∃ row ∈ opcodeTable, w &&& row.mask = row.pattern := by
  obtain ⟨hun, hd⟩ | ⟨row, hmem, i, hop, -, hd⟩ := decode_cases w
  · rw [hd]
    refine iff_of_false (by simp) ?_
    rintro ⟨row, hmem, hmatch⟩
    exact not_unassignedOp_of_row row hmem (opField_of_match hmem hmatch ▸ hun)
  · rw [hd]
    constructor
    · rintro ⟨j, hj⟩
      exact ⟨row, hmem, by simpa using (ifZero_eq_ok.mp hj).1⟩
    · rintro ⟨row', hmem', hmatch⟩
      obtain rfl := row_eq_of_opcode hmem hmem' (hop.trans (opField_of_match hmem' hmatch).symm)
      exact ⟨i, ifZero_eq_ok.mpr ⟨by simpa using hmatch, rfl⟩⟩

/-- R65 (a). -/
theorem decode_eq_unassigned_iff (w : CmdWord) : decode w = .error .unassignedOpcode ↔ UnassignedOp (opField w) := by
  obtain ⟨hun, hd⟩ | ⟨row, hmem, i, hop, -, hd⟩ := decode_cases w
  · exact iff_of_true hd hun
  · rw [hd, ← hop]
    exact iff_of_false (ifZero_ne_unassigned _ i) (not_unassignedOp_of_row row hmem)

/-- Settles O3: the decoder against the rows, and the ILLEGAL entry of an issued word that has none. -/
theorem illegalWordsAreThoseOfNoTableRow : Obligations.IllegalWordsAreThoseOfNoTableRow := by
  refine fun w => ⟨exists_decode_eq_ok_iff w, decode_eq_unassigned_iff w, fun s rest hm hf hp hillegal => ?_⟩
  cases hd : decode w with
  | ok i => exact absurd hd (hillegal i)
  | error e =>
    have hstep : step s = .next ((taken s).enterFault causeIllegal w).complete :=
      (step_of_pending hm hp).trans (issue_illegal (s := taken s) hf hd)
    exact ⟨_, hstep, rfl, rfl, rfl, fun _ => ⟨rfl, rfl⟩, rfl⟩

end Sys2Proof
end

section
/-! The pseudo-instructions (R70) and the example lines of the assembly (R69). -/

namespace Sys2Proof.Machine

/-! ### Completion of a ranged command in range (R100, R202) -/

theorem nullaryRanged_wrote {limit n : Nat} (h : n ≤ limit) (cmd : CmdWord) (rd : Reg) (v : Word) (s : State) :
    ∃ t, nullaryRanged cmd rd (upTo limit n v) s = .next t ∧ Wrote rd v s t := by
  rw [nullaryRanged, upTo_of_le h]
  exact retire_some cmd rd v s

theorem unaryRanged_wrote {s : State} {x : Reg} (hx : s.isWritten x = true) {limit n : Nat} (h : n ≤ limit) (cmd : CmdWord)
    (rd : Reg) (f : Word → Word) :
    ∃ t, unaryRanged cmd rd x (fun v => upTo limit n (f v)) s = .next t ∧ Wrote rd (f (s.readB x)) s t := by
  rw [unaryRanged_of_written hx, upTo_of_le h]
  exact retire_some cmd rd _ s

/-! ### The shifter by one step (R139) -/

theorem shiftNorth_one (v : Word) : shiftNorth v 1 = stepDir .n v := rfl

theorem shiftSouth_one (v : Word) : shiftSouth v 1 = stepDir .s v := rfl

theorem shiftEast_one (v : Word) : shiftEast v 1 = stepDir .e v := by
  have hfiles : ~~~(westFiles 1) = notA := by decide
  rw [shiftEast, hfiles, stepDir]

theorem shiftWest_one (v : Word) : shiftWest v 1 = stepDir .w v := by
  have hfiles : ~~~(eastFiles 1) = notH := by decide
  rw [shiftWest, hfiles, stepDir]

/-! ### What the pseudo-instructions write (R70) -/

section
variable {s : State} {rs : Reg} (hs : s.isWritten rs = true) (rd : Reg)
include hs

theorem mov_completes : Completes (expand (.mov rd rs)) s rd (s.readB rs) := by
  have hor := binary_wrote hs hs rd (fun x y => x ||| y)
  rwa [BitVec.or_self] at hor

theorem step_completes (d : Dir) : Completes (expand (.step d rd rs)) s rd (stepDir d (s.readB rs)) := by
  cases d with
  | n =>
    rw [← shiftNorth_one]
    exact unaryRanged_wrote hs (by decide : 1 ≤ maxAmount) _ rd (shiftNorth · 1)
  | s =>
    rw [← shiftSouth_one]
    exact unaryRanged_wrote hs (by decide : 1 ≤ maxAmount) _ rd (shiftSouth · 1)
  | e =>
    rw [← shiftEast_one]
    exact unaryRanged_wrote hs (by decide : 1 ≤ maxFiles) _ rd (shiftEast · 1)
  | w =>
    rw [← shiftWest_one]
    exact unaryRanged_wrote hs (by decide : 1 ≤ maxFiles) _ rd (shiftWest · 1)
  | ne | nw | se | sw => exact unary_wrote hs rd _

end

theorem clr_completes (s : State) (rd : Reg) : Completes (expand (.clr rd)) s rd 0 :=
  nullaryRanged_wrote (by decide : 0 ≤ maxFiles) (encode (.efiles rd 0)) rd (eastFiles 0) s

theorem full_completes (s : State) (rd : Reg) : Completes (expand (.full rd)) s rd 0xFFFFFFFFFFFFFFFF := by
  have hfull : eastFiles 8 = 0xFFFFFFFFFFFFFFFF := by decide
  rw [← hfull]
  exact nullaryRanged_wrote (by decide : 8 ≤ maxFiles) (encode (.efiles rd 8)) rd (eastFiles 8) s

end Sys2Proof.Machine

namespace Sys2Proof

open Sys2Proof.Machine

/-- Settles O53: each expansion by its execution form, and the shifter's single steps. -/
theorem pseudoInstructionsDoWhatTheyName : Obligations.PseudoInstructionsDoWhatTheyName := by
  intro s rd rs n _ hread hn
  have hd : s.isWritten rd = true := hread rd (by simp)
  have hs : s.isWritten rs = true := hread rs (by simp)
  exact ⟨mov_completes hs rd, clr_completes s rd, full_completes s rd, binary_wrote hd hs rd _, binary_wrote hd hs rd _,
    binary_wrote hd hs rd _, unary_wrote hd rd _, unaryRanged_wrote hd hn _ rd (shl · n),
    unaryRanged_wrote hd hn _ rd (shr · n), step_completes hs rd⟩

/-- Settles O54: the assembler reads each line as its instruction, whose encoding is the word. -/
theorem exampleLinesAssemble : Obligations.ExampleLinesAssemble := by
  unfold Obligations.ExampleLinesAssemble
  decide

end Sys2Proof
end

section
/-! The outcome of a command in the order of R100 and R203: ReadUnwritten of the first unwritten source, RANGE under the list
of R202, else RD is written; then the obligations that read it off, of `exec` and of a step that issues the command. -/

namespace Sys2Proof.Machine

/-! ### Reading the sources in order (R100) -/

/-- The read that ends a run is that of the first unwritten register, in the order they are read. -/
theorem firstUnwritten_eq_some_iff {s : State} {rs : List Reg} {r : Reg} :
    firstUnwritten s rs = some r ↔
      ∃ before after, rs = before ++ r :: after ∧ Readable s before ∧ s.isWritten r = false := by
  simp only [firstUnwritten, List.find?_eq_some_iff_append, Readable, Bool.not_eq_true', Bool.not_not]
  constructor
  · rintro ⟨hr, before, after, hsplit, hbefore⟩
    exact ⟨before, after, hsplit, hbefore, hr⟩
  · rintro ⟨before, after, hsplit, hbefore, hr⟩
    exact ⟨hr, before, after, hsplit, hbefore⟩

/-! ### The outcome of an instruction (R202, R203) -/

/-- Every instruction reads its sources and then retires, without a value exactly where the list of R202 has it. -/
theorem exec_retires (i : Instr) (s : State) : ∃ result : Option Word, result.isNone = outOfRange s i ∧
    exec i s = afterReads (sourcesOf i) s (retire (encode i) (destOf i) result s) := by
  cases i with
  | and | or | xor | not | sq | file | rank | isempty | containsi | shNE | shSE | shSW | shNW | fillN | fillNE | fillE
      | fillSE | fillS | fillSW | fillW | fillNW | atkN | atkNE | atkE | atkSE | atkS | atkSW | atkW | atkNW | popcnt | lsb
      | clrlsb => exact ⟨some _, rfl, rfl⟩
  | shl | shr | efiles | wfiles | shN | shE | shS | shW => exact ⟨_, upTo_isNone _ _ _, rfl⟩
  | sqr | contains => exact ⟨_, ifSquare_isNone _ _, rfl⟩

section
variable {i : Instr} {s : State}

theorem exec_of_firstUnwritten {r : Reg} (h : firstUnwritten s (sourcesOf i) = some r) :
    exec i s = .next (s.endRun r) := by
  obtain ⟨result, -, hexec⟩ := exec_retires i s
  rw [hexec, afterReads_of_unwritten h]

variable (h : Readable s (sourcesOf i))
include h

theorem exec_of_outOfRange (hrange : outOfRange s i = true) :
    exec i s = .next (s.enterFault causeRange (encode i)) := by
  obtain ⟨result, hnone, hexec⟩ := exec_retires i s
  obtain rfl : result = none := Option.isNone_iff_eq_none.mp (hnone.trans hrange)
  rw [hexec, afterReads_of_readable h, retire]

theorem exec_of_inRange (hrange : outOfRange s i = false) :
    ∃ v, exec i s = .next (s.writeB (destOf i) v) := by
  obtain ⟨result, hnone, hexec⟩ := exec_retires i s
  obtain ⟨v, rfl⟩ : ∃ v, result = some v := Option.isSome_iff_exists.mp (Option.isNone_eq_false_iff.mp (hnone.trans hrange))
  exact ⟨v, by rw [hexec, afterReads_of_readable h, retire]⟩

/-- An operand on the list of R202 raises RANGE with the instruction's own word. -/
theorem raisesRange_of_outOfRange (hrange : outOfRange s i = true) : RaisesRange i s (encode i) :=
  ⟨_, exec_of_outOfRange h hrange, entered_enterFault s causeRange (encode i)⟩

end

/-! ### A step that issues a legal command (R100, R203) -/

theorem outOfRange_taken (s : State) (i : Instr) : outOfRange (taken s) i = outOfRange s i := rfl

theorem step_of_issues {s : State} {x : HostTx} {rest : List HostTx} {w : CmdWord} (hm : s.modelFault = none)
    (hp : s.pending = x :: rest) (hx : Issues x w) : step s = issue w (taken s) :=
  (step_of_pending hm hp).trans (transact_of_issues hx _)

section
variable {s : State} {w : CmdWord} {i : Instr} (hm : s.modelFault = none) (hf : s.fault = false) (hd : decode w = .ok i)
include hf hd

theorem issue_of_firstUnwritten {r : Reg} (h : firstUnwritten s (sourcesOf i) = some r) :
    issue w s = .next (s.endRun r) := by
  rw [issue_legal hf hd, exec_of_firstUnwritten h, onNext, State.finish_of_some (State.endRun_modelFault s r)]

include hm

theorem issue_of_outOfRange (h : Readable s (sourcesOf i)) (hrange : outOfRange s i = true) :
    issue w s = .next (s.enterFault causeRange w).complete := by
  rw [issue_legal hf hd, exec_of_outOfRange h hrange, encode_of_decode hd, onNext,
    State.finish_of_none (s := s.enterFault _ _) hm]

theorem issue_of_inRange (h : Readable s (sourcesOf i)) (hrange : outOfRange s i = false) :
    ∃ v, issue w s = .next (s.writeB (destOf i) v).complete := by
  obtain ⟨v, hexec⟩ := exec_of_inRange h hrange
  exact ⟨v, by rw [issue_legal hf hd, hexec, onNext, State.finish_of_none (s := s.writeB _ _) hm]⟩

end

end Sys2Proof.Machine

namespace Sys2Proof

open Sys2Proof.Machine

/-- Settles O9: the frame of each of the three outcomes. -/
theorem everyInstructionWritesAtMostItsDestination : Obligations.EveryInstructionWritesAtMostItsDestination := by
  intro i s
  cases hu : firstUnwritten s (sourcesOf i) with
  | some r =>
    refine ⟨_, exec_of_firstUnwritten hu, fun _ _ => ⟨rfl, rfl⟩, rfl, rfl, rfl, rfl, fun before after q hsplit hb hq => ?_,
      fun hread => ?_⟩
    · obtain rfl : r = q := Option.some.inj (hu.symm.trans (firstUnwritten_eq_some_iff.mpr ⟨before, after, hsplit, hb, hq⟩))
      obtain ⟨-, -, hunit⟩ := endRun_kept s r
      exact ⟨hunit, rfl⟩
    · cases hu.symm.trans (firstUnwritten_eq_none.mpr hread)
  | none =>
    have hread := firstUnwritten_eq_none.mp hu
    have noUnwritten (before after : List Reg) (r : Reg) (hsplit : sourcesOf i = before ++ r :: after)
        (hb : Readable s before) (hr : s.isWritten r = false) : False := by
      cases hu.symm.trans (firstUnwritten_eq_some_iff.mpr ⟨before, after, hsplit, hb, hr⟩)
    cases hrange : outOfRange s i with
    | true =>
      exact ⟨_, exec_of_outOfRange hread hrange, fun _ _ => ⟨rfl, rfl⟩, rfl, rfl, rfl, rfl,
        fun before after r hsplit hb hr => (noUnwritten before after r hsplit hb hr).elim,
        fun _ => ⟨rfl, fun _ => ⟨fun _ => ⟨rfl, rfl⟩, rfl, rfl, rfl⟩, nofun⟩⟩
    | false =>
      obtain ⟨v, hexec⟩ := exec_of_inRange hread hrange
      exact ⟨_, hexec, (wrote_writeB s (destOf i) v).others, rfl, rfl, rfl, rfl,
        fun before after r hsplit hb hr => (noUnwritten before after r hsplit hb hr).elim,
        fun _ => ⟨rfl, nofun, fun _ => ⟨State.writeB_isWritten_self s (destOf i) v, rfl, rfl, rfl⟩⟩⟩

/-- Settles O55: the step is the issue of the word, outcome by outcome. -/
theorem outcomesAreTakenInPriorityOrder : Obligations.OutcomesAreTakenInPriorityOrder := by
  intro s x rest w hm hp hx
  rw [step_of_issues hm hp hx]
  refine ⟨fun hf => issue_rejected (s := taken s) hf w, fun hf hillegal => ?_, fun i hf hd => ⟨fun before after r hsplit hb hr => ?_,
    fun hread hrange => ?_, fun hread hrange => ?_⟩⟩
  · cases hd : decode w with
    | ok i => exact absurd hd (hillegal i)
    | error e => exact ⟨_, entered_enterFault (taken s) causeIllegal w, issue_illegal (s := taken s) hf hd⟩
  · have hu : firstUnwritten (taken s) (sourcesOf i) = some r :=
      firstUnwritten_eq_some_iff.mpr ⟨before, after, hsplit, hb, hr⟩
    have hrest : (taken s).pending = rest := by rw [taken_pending, hp, List.tail_cons]
    exact ⟨_, issue_of_firstUnwritten (s := taken s) hf hd hu, ⟨rfl, rfl, rfl, rfl, rfl⟩, rfl, hrest, rfl, rfl, rfl, step_ended rfl⟩
  · exact ⟨_, entered_enterFault (taken s) causeRange w, issue_of_outOfRange (s := taken s) hm hf hd hread hrange⟩
  · obtain ⟨v, hissue⟩ := issue_of_inRange (s := taken s) hm hf hd hread hrange
    exact ⟨_, v, wrote_writeB (taken s) (destOf i) v, hissue⟩

/-- Settles O6: the step is the issue of the word, and a legal word is executed. -/
theorem stepRunsTheDecodedCommand : Obligations.StepRunsTheDecodedCommand :=
  fun _ _ _ _ _ hm hp hx hf hd => ⟨wellFormed_of_decode hd, (step_of_issues hm hp hx).trans (issue_legal hf hd),
    fun _ => State.finish_of_none, fun _ _ => State.finish_of_some⟩

end Sys2Proof
end

section
/-! The sets and verdicts that constructors and tests write, square by square (R107 to R115), and the completion of the
commands whose operand is a square index in a register. -/

namespace Sys2Proof.Machine

/-! ### Masks square by square (R107, R109 to R112) -/

section
variable {q : Nat} (hq : q < 64)
include hq

theorem squareMask_getLsbD_iff (n : Nat) : (squareMask n).getLsbD q = true ↔ q = n := by
  simp only [squareMask, shl_getLsbD, BitVec.ofNat_eq_ofNat, BitVec.getLsbD_one, Bool.and_eq_true, Bool.not_eq_true',
    decide_eq_true_eq, decide_eq_false_iff_not]
  omega

theorem fileMask_getLsbD_iff {n : Nat} (h : n < 8) : (fileMask n).getLsbD q = true ↔ q % 8 = n := by
  have fileA : ∀ k, k < 64 → ((0x0101010101010101 : Word).getLsbD k = true ↔ k % 8 = 0) := by decide
  simp only [fileMask, shl_getLsbD, Bool.and_eq_true, Bool.not_eq_true', decide_eq_true_eq, decide_eq_false_iff_not,
    fileA (q - n) (by omega)]
  omega

theorem rankMask_getLsbD_iff (n : Nat) : (rankMask n).getLsbD q = true ↔ q / 8 = n := by
  have rankOne : ∀ k, k < 64 → ((0x00000000000000FF : Word).getLsbD k = true ↔ k < 8) := by decide
  simp only [rankMask, shl_getLsbD, Bool.and_eq_true, Bool.not_eq_true', decide_eq_true_eq, decide_eq_false_iff_not,
    rankOne (q - 8 * n) (by omega)]
  omega

/-- The `n` westernmost files are those below `n`. -/
theorem westFiles_getLsbD_iff_file {n : Nat} (h : n ≤ 8) : (westFiles n).getLsbD q = true ↔ q % 8 < n := by
  rw [westFiles_getLsbD_iff]
  constructor
  · rintro ⟨f, hf, hmem⟩
    have hfile := (fileMask_getLsbD_iff hq (by omega)).mp hmem
    omega
  · exact fun hfile => ⟨q % 8, hfile, (fileMask_getLsbD_iff hq (by omega)).mpr rfl⟩

/-- The `n` easternmost files are those from `8 - n` on. -/
theorem eastFiles_getLsbD_iff_file {n : Nat} (h : n ≤ 8) : (eastFiles n).getLsbD q = true ↔ 8 - n ≤ q % 8 := by
  rw [eastFiles_getLsbD_iff h]
  constructor
  · rintro ⟨f, hf, hf7, hmem⟩
    have hfile := (fileMask_getLsbD_iff hq (by omega)).mp hmem
    omega
  · exact fun hfile => ⟨q % 8, hfile, by omega, (fileMask_getLsbD_iff hq (by omega)).mpr rfl⟩

end

/-- A square lies west of the split or east of it. -/
theorem westFiles_eq_not_eastFiles {n : Nat} (h : n ≤ 8) : westFiles n = ~~~(eastFiles (8 - n)) := by
  refine BitVec.eq_of_getLsbD_eq fun q hq => ?_
  rw [Bool.eq_iff_iff, BitVec.getLsbD_not, westFiles_getLsbD_iff_file hq h, decide_eq_true hq, Bool.true_and,
    Bool.not_eq_true', ← Bool.not_eq_true, eastFiles_getLsbD_iff_file hq (by omega)]
  omega

/-! ### Verdicts (R113 to R115) -/

theorem memberBit_eq (v : Word) (n : Nat) : memberBit v n = if v.getLsbD n then 1 else 0 := by
  have hbit : (shr v n).getLsbD 0 = v.getLsbD n := by rw [shr_getLsbD, Nat.zero_add]
  rw [memberBit, BitVec.ofNat_eq_ofNat, BitVec.and_one_eq_setWidth_ofBool_getLsbD, hbit]
  cases v.getLsbD n <;> rfl

/-- A set with no member is the empty one. -/
theorem word_eq_zero_of_no_member {v : Word} (h : ∀ q, q < 64 → v.getLsbD q = false) : v = 0 :=
  BitVec.eq_of_getLsbD_eq fun q hq => (h q hq).trans BitVec.getLsbD_zero.symm

/-! ### A square index in a register (R108, R114) -/

section
variable {s : State} {x y : Reg} (hx : s.isWritten x = true) (rd : Reg)
include hx

theorem sqr_completes (h : (s.readB x).toNat < 64) : Completes (.sqr rd x) s rd (squareMask (s.readB x).toNat) := by
  have hexec : exec (.sqr rd x) s = _ := unaryRanged_of_written hx _ rd fun v => ifSquare v squareMask
  rw [ifSquare_of_lt h] at hexec
  exact ⟨_, hexec, wrote_writeB s rd _⟩

theorem contains_completes (hy : s.isWritten y = true) (h : (s.readB y).toNat < 64) :
    Completes (.contains rd x y) s rd (memberBit (s.readB x) (s.readB y).toNat) := by
  have hexec : exec (.contains rd x y) s = _ := binaryRanged_of_written hx hy _ rd fun v w => ifSquare w (memberBit v)
  rw [ifSquare_of_lt h] at hexec
  exact ⟨_, hexec, wrote_writeB s rd _⟩

end

end Sys2Proof.Machine
end

section
/-! The obligations of set algebra, constructors and tests (R101 to R115): the format of each opcode, the execution form of
each instruction, and the written value square by square. -/

namespace Sys2Proof

open Sys2Proof.Machine

/-- Settles O10: the operations bit by bit. -/
theorem setAlgebraWritesBitwiseResult : Obligations.SetAlgebraWritesBitwiseResult := by
  refine ⟨encodedR_of_decode (by decide) fun w hop => by simp only [decode, hop],
    encodedR_of_decode (by decide) fun w hop => by simp only [decode, hop],
    encodedR_of_decode (by decide) fun w hop => by simp only [decode, hop], fun s rd rs1 rs2 _ hread => ?_⟩
  have h1 : s.isWritten rs1 = true := hread rs1 (by simp)
  have h2 : s.isWritten rs2 = true := hread rs2 (by simp)
  exact ⟨⟨_, binary_wrote h1 h2 rd _, fun q _ => by simp⟩, ⟨_, binary_wrote h1 h2 rd _, fun q _ => by simp⟩,
    ⟨_, binary_wrote h1 h2 rd _, fun q _ => by simp⟩⟩

/-- Settles O11: the complement bit by bit. -/
theorem notWritesTheComplement : Obligations.NotWritesTheComplement := by
  refine ⟨encodedU_of_decode (by decide) fun w hop => by simp only [decode, hop], fun s rd rs1 _ hread => ?_⟩
  exact ⟨_, unary_wrote (hread rs1 (by simp)) rd _, fun q hq => by simp [hq]⟩

/-- Settles O12: R8's shifts bit by bit up to 64, and R202's limit above. -/
theorem logicalShiftsMoveEveryBit : Obligations.LogicalShiftsMoveEveryBit := by
  refine ⟨encodedI_of_decode (by decide) 6 (by decide) fun w hop => by simp only [decode, hop, decodeI7],
    encodedI_of_decode (by decide) 6 (by decide) fun w hop => by simp only [decode, hop, decodeI7],
    fun s rd rs1 n _ hread _ => ?_⟩
  have h1 : s.isWritten rs1 = true := hread rs1 (by simp)
  exact ⟨fun hn => ⟨_, unaryRanged_wrote h1 hn _ rd (shl · n), fun q hq => by rw [shl_getLsbD]; simp [hq]⟩,
    fun hn => raisesRange_of_outOfRange (i := .shl rd rs1 n) hread (decide_eq_true hn),
    fun hn => ⟨_, unaryRanged_wrote h1 hn _ rd (shr · n), fun q _ => by rw [shr_getLsbD]⟩,
    fun hn => raisesRange_of_outOfRange (i := .shr rd rs1 n) hread (decide_eq_true hn)⟩

/-- Settles O13: the single-square set. -/
theorem sqWritesTheSingleSquare : Obligations.SqWritesTheSingleSquare :=
  ⟨encodedC_of_decode (by decide) 5 (by decide) fun w hop => by simp only [decode, hop, decodeC6],
    fun s rd n _ _ => ⟨_, nullary_wrote rd (squareMask n) s, fun _ hq => squareMask_getLsbD_iff hq n⟩⟩

/-- Settles O14: the single-square set where the whole value is a square, and R202's limit above. -/
theorem sqrWritesTheSingleSquareOrRange : Obligations.SqrWritesTheSingleSquareOrRange := by
  refine ⟨encodedU_of_decode (by decide) fun w hop => by simp only [decode, hop], fun s rd rs1 _ hread => ?_⟩
  exact ⟨fun h => ⟨_, sqr_completes (hread rs1 (by simp)) rd h, fun _ hq => squareMask_getLsbD_iff hq _⟩,
    fun h => raisesRange_of_outOfRange (i := .sqr rd rs1) hread (decide_eq_true h)⟩

/-- Settles O15: the two masks square by square. -/
theorem fileAndRankWriteTheirMasks : Obligations.FileAndRankWriteTheirMasks :=
  ⟨encodedC_of_decode (by decide) 2 (by decide) fun w hop => by simp only [decode, hop, decodeC3],
    encodedC_of_decode (by decide) 2 (by decide) fun w hop => by simp only [decode, hop, decodeC3],
    fun s rd n _ hn => ⟨⟨_, nullary_wrote rd (fileMask n) s, fun _ hq => fileMask_getLsbD_iff hq hn⟩,
      ⟨_, nullary_wrote rd (rankMask n) s, fun _ hq => rankMask_getLsbD_iff hq n⟩⟩⟩

/-- Settles O16: the two masks up to 8 files and R202's limit above, the masks by file, and the rule's table. -/
theorem multiFileMasksOrRange : Obligations.MultiFileMasksOrRange := by
  refine ⟨encodedC_of_decode (by decide) 3 (by decide) fun w hop => by simp only [decode, hop, decodeC4],
    encodedC_of_decode (by decide) 3 (by decide) fun w hop => by simp only [decode, hop, decodeC4],
    fun s rd n _ _ => ?_, fun n q hn hq => ⟨eastFiles_getLsbD_iff_file hq hn, westFiles_getLsbD_iff_file hq hn⟩,
    fun n hn => westFiles_eq_not_eastFiles hn, by decide, by decide⟩
  have noSources : Readable s [] := nofun
  exact ⟨fun hn => nullaryRanged_wrote hn _ rd (eastFiles n) s,
    fun hn => raisesRange_of_outOfRange (i := .efiles rd n) noSources (decide_eq_true hn),
    fun hn => nullaryRanged_wrote hn _ rd (westFiles n) s,
    fun hn => raisesRange_of_outOfRange (i := .wfiles rd n) noSources (decide_eq_true hn)⟩

/-- Settles O17: the verdict is on the whole word. -/
theorem isemptyWritesTheVerdict : Obligations.IsemptyWritesTheVerdict := by
  refine ⟨encodedU_of_decode (by decide) fun w hop => by simp only [decode, hop], fun s rd rs1 _ hread => ?_⟩
  have verdict : Completes (.isempty rd rs1) s rd (truthWord (s.readB rs1 == 0)) :=
    unary_wrote (hread rs1 (by simp)) rd fun v => truthWord (v == 0)
  constructor
  · intro hempty
    rwa [word_eq_zero_of_no_member hempty] at verdict
  · rintro ⟨q, hq, hmem⟩
    have hne : s.readB rs1 ≠ 0 := fun hzero => by simp [hzero] at hmem
    rwa [beq_false_of_ne hne] at verdict

/-- Settles O18: the member's bit where the whole index is a square, and R202's limit above. -/
theorem containsTestsTheSquareOrRange : Obligations.ContainsTestsTheSquareOrRange := by
  refine ⟨encodedR_of_decode (by decide) fun w hop => by simp only [decode, hop], fun s rd rs1 rs2 _ hread => ⟨fun h => ?_,
    fun h => raisesRange_of_outOfRange (i := .contains rd rs1 rs2) hread (decide_eq_true h)⟩⟩
  rw [← memberBit_eq]
  exact contains_completes (hread rs1 (by simp)) rd (hread rs2 (by simp)) h

/-- Settles O19: the member's bit. -/
theorem containsiTestsTheSquare : Obligations.ContainsiTestsTheSquare := by
  refine ⟨encodedI_of_decode (by decide) 5 (by decide) fun w hop => by simp only [decode, hop, decodeI6],
    fun s rd rs1 n _ hread _ => ?_⟩
  rw [← memberBit_eq]
  exact unary_wrote (hread rs1 (by simp)) rd (memberBit · n)

end Sys2Proof
end

section
/-! Shifted sets square by square (R8, R131 to R134), the single steps as one masked shift along the direction's offset
(R11, R150), and the multi-step shifts as iterated single steps (R139). -/

namespace Sys2Proof.Machine

/-- Two sets are equal when they have the same members. -/
theorem word_eq_of_members {v w : Word} (h : ∀ q, q < 64 → (v.getLsbD q = true ↔ w.getLsbD q = true)) : v = w :=
  BitVec.eq_of_getLsbD_eq fun q hq => Bool.eq_iff_iff.mpr (h q hq)

/-! ### Members of a shifted set (R8, R131 to R134) -/

theorem shr_getLsbD_iff (v : Word) (n q : Nat) : (shr v n).getLsbD q = true ↔ v.getLsbD (q + n) = true := by
  rw [shr_getLsbD]

section
variable {q : Nat} (hq : q < 64)
include hq

theorem not_getLsbD_iff (m : Word) : (~~~m).getLsbD q = true ↔ ¬ m.getLsbD q = true := by
  simp [hq]

theorem shl_getLsbD_iff (v : Word) (n : Nat) : (shl v n).getLsbD q = true ↔ n ≤ q ∧ v.getLsbD (q - n) = true := by
  rw [shl_getLsbD]
  simp [hq]

theorem shiftEast_getLsbD_iff (v : Word) {n : Nat} (hn : n ≤ 8) :
    (shiftEast v n).getLsbD q = true ↔ n ≤ q % 8 ∧ v.getLsbD (q - n) = true := by
  rw [shiftEast, BitVec.getLsbD_and, Bool.and_eq_true, shl_getLsbD_iff hq, not_getLsbD_iff hq,
    westFiles_getLsbD_iff_file hq hn]
  have hfile : n ≤ q % 8 ↔ n ≤ q ∧ ¬ q % 8 < n := by omega
  rw [hfile, and_right_comm]

theorem shiftWest_getLsbD_iff (v : Word) {n : Nat} (hn : n ≤ 8) :
    (shiftWest v n).getLsbD q = true ↔ q % 8 + n < 8 ∧ v.getLsbD (q + n) = true := by
  rw [shiftWest, BitVec.getLsbD_and, Bool.and_eq_true, shr_getLsbD_iff, not_getLsbD_iff hq,
    eastFiles_getLsbD_iff_file hq hn]
  have hfile : q % 8 + n < 8 ↔ ¬ 8 - n ≤ q % 8 := by omega
  rw [hfile, and_comm]

/-- A signed shift moves every member by the same offset. -/
theorem rsh_getLsbD_iff (v : Word) (k : Int) :
    (rsh v k).getLsbD q = true ↔ ∃ o, o < 64 ∧ v.getLsbD o = true ∧ (q : Int) = o + k := by
  by_cases hk : 0 ≤ k
  · rw [rsh_of_nonneg v hk, shl_getLsbD_iff hq]
    constructor
    · rintro ⟨hle, hmem⟩
      exact ⟨q - k.toNat, by omega, hmem, by omega⟩
    · rintro ⟨o, -, hmem, hoff⟩
      obtain rfl : o = q - k.toNat := by omega
      exact ⟨by omega, hmem⟩
  · rw [rsh_of_neg v (by omega), shr_getLsbD_iff]
    constructor
    · intro hmem
      exact ⟨q + (-k).toNat, BitVec.lt_of_getLsbD hmem, hmem, by omega⟩
    · rintro ⟨o, -, hmem, hoff⟩
      obtain rfl : o = q + (-k).toNat := by omega
      exact hmem

/-! ### Single steps (R11, R130, R139) -/

/-- The pre-mask keeps the squares whose file a step in the direction can end in. -/
theorem preMask_getLsbD_iff (d : Dir) :
    (preMask d).getLsbD q = true ↔ 0 ≤ (fileOf q : Int) - dirFile d ∧ (fileOf q : Int) - dirFile d < 8 := by
  have everySquare : ∀ k, k < 64 → ((preMask d).getLsbD k = true ↔
      0 ≤ (fileOf k : Int) - dirFile d ∧ (fileOf k : Int) - dirFile d < 8) := by
    cases d <;> decide
  exact everySquare q hq

/-- Of the squares one offset apart, the neighbours are those whose step does not wrap to another rank. -/
theorem neighbour_eq_some_iff (d : Dir) (o : Nat) : neighbour d o = some q ↔
    (q : Int) = o + dirOffset d ∧ 0 ≤ (fileOf q : Int) - dirFile d ∧ (fileOf q : Int) - dirFile d < 8 := by
  constructor
  · intro h
    obtain ⟨-, hfile, -⟩ := neighbour_eq_some h
    refine ⟨neighbour_offset h, ?_⟩
    simp only [fileOf] at *
    omega
  · rintro ⟨hoff, hlow, hhigh⟩
    cases hstep : neighbour d o with
    | none =>
      rw [neighbour_eq_none_iff] at hstep
      rw [dirOffset_eq] at hoff
      simp only [fileOf, rankOf] at *
      omega
    | some p =>
      have hp := neighbour_offset hstep
      obtain rfl : p = q := by omega
      rfl

end

/-- A single step is the shift by the direction's offset, with the files it cannot end in masked off. -/
theorem stepDir_eq_masked_rsh (d : Dir) (v : Word) : stepDir d v = rsh v (dirOffset d) &&& preMask d := by
  cases d with
  | n | s => exact (BitVec.and_allOnes).symm
  | ne | e | se | sw | w | nw => rfl

theorem stepDir_getLsbD_iff (d : Dir) (v : Word) {q : Nat} (hq : q < 64) :
    (stepDir d v).getLsbD q = true ↔ ∃ o, o < 64 ∧ v.getLsbD o = true ∧ neighbour d o = some q := by
  rw [stepDir_eq_masked_rsh, BitVec.getLsbD_and, Bool.and_eq_true, rsh_getLsbD_iff hq, preMask_getLsbD_iff hq]
  constructor
  · rintro ⟨⟨o, ho, hmem, hoff⟩, hfile⟩
    exact ⟨o, ho, hmem, (neighbour_eq_some_iff hq d o).mpr ⟨hoff, hfile⟩⟩
  · rintro ⟨o, ho, hmem, hstep⟩
    obtain ⟨hoff, hfile⟩ := (neighbour_eq_some_iff hq d o).mp hstep
    exact ⟨⟨o, ho, hmem, hoff⟩, hfile⟩

/-! ### No step, and one step more (R139) -/

theorem shiftNorth_zero (v : Word) : shiftNorth v 0 = v := BitVec.shiftLeft_zero v

theorem shiftSouth_zero (v : Word) : shiftSouth v 0 = v := BitVec.ushiftRight_zero v

theorem shiftEast_zero (v : Word) : shiftEast v 0 = v :=
  word_eq_of_members fun q hq => by simp [shiftEast_getLsbD_iff hq]

theorem shiftWest_zero (v : Word) : shiftWest v 0 = v :=
  word_eq_of_members fun q hq => by simp [shiftWest_getLsbD_iff hq, Nat.mod_lt]

theorem shiftNorth_succ (v : Word) (n : Nat) : shiftNorth v (n + 1) = stepDir .n (shiftNorth v n) :=
  BitVec.shiftLeft_add v (8 * n) 8

theorem shiftSouth_succ (v : Word) (n : Nat) : shiftSouth v (n + 1) = stepDir .s (shiftSouth v n) :=
  BitVec.shiftRight_add v (8 * n) 8

section
variable {n : Nat} (h : n < 8)
include h

theorem shiftEast_succ (v : Word) : shiftEast v (n + 1) = stepDir .e (shiftEast v n) := by
  refine word_eq_of_members fun q hq => ?_
  have hfile : n + 1 ≤ q % 8 ↔ 1 ≤ q % 8 ∧ n ≤ (q - 1) % 8 := by omega
  rw [← shiftEast_one, shiftEast_getLsbD_iff hq _ (by omega), shiftEast_getLsbD_iff hq _ (by omega), hfile, and_assoc,
    Nat.add_comm n 1, ← Nat.sub_sub, shiftEast_getLsbD_iff (by omega) v (by omega)]

theorem shiftWest_succ (v : Word) : shiftWest v (n + 1) = stepDir .w (shiftWest v n) := by
  refine word_eq_of_members fun q hq => ?_
  have hfile : q % 8 + (n + 1) < 8 ↔ q % 8 + 1 < 8 ∧ (q + 1) % 8 + n < 8 := by omega
  rw [← shiftWest_one, shiftWest_getLsbD_iff hq _ (by omega), shiftWest_getLsbD_iff hq _ (by omega), hfile, and_assoc,
    Nat.add_comm n 1, ← Nat.add_assoc]
  exact and_congr_right fun hedge => (shiftWest_getLsbD_iff (by omega) v (by omega)).symm

end

/-- What starts at `v` and takes one application of `f` at each count up to `limit` is the iterate of `f`. -/
theorem eq_iterate_of_succ {f : Word → Word} {g : Nat → Word} {v : Word} {limit : Nat} (zero : g 0 = v)
    (succ : ∀ n, n < limit → g (n + 1) = f (g n)) : ∀ n, n ≤ limit → g n = f^[n] v
  | 0, _ => zero
  | n + 1, hn => by
    rw [succ n hn, eq_iterate_of_succ zero succ n (Nat.le_of_succ_le hn), Function.iterate_succ_apply']

/-! ### Masking before the shift (R139) -/

section
variable {n : Nat} (h : n ≤ 8)
include h

/-- Going east, the squares that would wrap are those of the `n` easternmost files. -/
theorem shiftEast_eq_preMasked (v : Word) : shiftEast v n = shl (v &&& ~~~(eastFiles n)) n := by
  refine word_eq_of_members fun q hq => ?_
  rw [shiftEast_getLsbD_iff hq v h, shl_getLsbD_iff hq, BitVec.getLsbD_and, Bool.and_eq_true,
    not_getLsbD_iff (by omega), eastFiles_getLsbD_iff_file (by omega) h, and_comm (a := v.getLsbD _ = true), ← and_assoc]
  have hfile : n ≤ q % 8 ↔ n ≤ q ∧ ¬ 8 - n ≤ (q - n) % 8 := by omega
  rw [hfile]

/-- Going west, they are those of the `n` westernmost files. -/
theorem shiftWest_eq_preMasked (v : Word) : shiftWest v n = shr (v &&& ~~~(westFiles n)) n := by
  refine word_eq_of_members fun q hq => ?_
  rw [shiftWest_getLsbD_iff hq v h, shr_getLsbD_iff, BitVec.getLsbD_and, Bool.and_eq_true, and_comm]
  refine and_congr_right fun hmem => ?_
  have hboard : q + n < 64 := BitVec.lt_of_getLsbD hmem
  rw [not_getLsbD_iff hboard, westFiles_getLsbD_iff_file hboard h]
  omega

end

/-! ### Shifts off the board (R139) -/

theorem shiftEast_eight (v : Word) : shiftEast v 8 = 0 :=
  word_eq_zero_of_no_member fun q hq => by
    rw [← Bool.not_eq_true, shiftEast_getLsbD_iff hq v le_rfl]
    omega

theorem shiftWest_eight (v : Word) : shiftWest v 8 = 0 :=
  word_eq_zero_of_no_member fun q hq => by
    rw [← Bool.not_eq_true, shiftWest_getLsbD_iff hq v le_rfl]
    omega

end Sys2Proof.Machine
end

section
/-! The obligations of the shifter (R130 to R139). -/

namespace Sys2Proof

open Sys2Proof.Machine

/-- Settles O20: whole ranks up to 64, and R202's limit above. -/
theorem northAndSouthShiftWholeRanks : Obligations.NorthAndSouthShiftWholeRanks := by
  refine ⟨encodedI_of_decode (by decide) 6 (by decide) fun w hop => by simp only [decode, hop, decodeI7],
    encodedI_of_decode (by decide) 6 (by decide) fun w hop => by simp only [decode, hop, decodeI7],
    fun s rd rs1 n _ hread _ => ?_⟩
  have h1 : s.isWritten rs1 = true := hread rs1 (by simp)
  exact ⟨fun hn => ⟨_, unaryRanged_wrote h1 hn _ rd (shiftNorth · n), fun q hq => shl_getLsbD_iff hq _ (8 * n)⟩,
    fun hn => raisesRange_of_outOfRange (i := .shN rd rs1 n) hread (decide_eq_true hn),
    fun hn => ⟨_, unaryRanged_wrote h1 hn _ rd (shiftSouth · n), fun q _ => shr_getLsbD_iff _ (8 * n) q⟩,
    fun hn => raisesRange_of_outOfRange (i := .shS rd rs1 n) hread (decide_eq_true hn)⟩

/-- Settles O21: within the rank up to 8, and R202's limit above. -/
theorem eastAndWestShiftWithinTheRank : Obligations.EastAndWestShiftWithinTheRank := by
  refine ⟨encodedI_of_decode (by decide) 6 (by decide) fun w hop => by simp only [decode, hop, decodeI7],
    encodedI_of_decode (by decide) 6 (by decide) fun w hop => by simp only [decode, hop, decodeI7],
    fun s rd rs1 n _ hread _ => ?_⟩
  have h1 : s.isWritten rs1 = true := hread rs1 (by simp)
  exact ⟨fun hn => ⟨_, unaryRanged_wrote h1 hn _ rd (shiftEast · n), fun q hq => shiftEast_getLsbD_iff hq _ hn⟩,
    fun hn => raisesRange_of_outOfRange (i := .shE rd rs1 n) hread (decide_eq_true hn),
    fun hn => ⟨_, unaryRanged_wrote h1 hn _ rd (shiftWest · n), fun q hq => shiftWest_getLsbD_iff hq _ hn⟩,
    fun hn => raisesRange_of_outOfRange (i := .shW rd rs1 n) hread (decide_eq_true hn)⟩

/-- Settles O22: each is the direction's single step. -/
theorem diagonalShiftsMaskTheEnteringFile : Obligations.DiagonalShiftsMaskTheEnteringFile := by
  refine ⟨encodedU_of_decode (by decide) fun w hop => by simp only [decode, hop],
    encodedU_of_decode (by decide) fun w hop => by simp only [decode, hop],
    encodedU_of_decode (by decide) fun w hop => by simp only [decode, hop],
    encodedU_of_decode (by decide) fun w hop => by simp only [decode, hop], fun s rd rs1 _ hread => ?_⟩
  have h1 : s.isWritten rs1 = true := hread rs1 (by simp)
  exact ⟨unary_wrote h1 rd (stepDir .ne), unary_wrote h1 rd (stepDir .nw), unary_wrote h1 rd (stepDir .se),
    unary_wrote h1 rd (stepDir .sw)⟩

/-- Settles O23: the step by neighbours, and each shift from its recursion by one step. -/
theorem shifterMovesSquaresGeometrically : Obligations.ShifterMovesSquaresGeometrically := by
  refine ⟨fun d v q hq => stepDir_getLsbD_iff d v hq, fun v n hn => ⟨?_, ?_⟩,
    fun v n hn => ⟨?_, ?_, shiftEast_eq_preMasked hn v, shiftWest_eq_preMasked hn v⟩,
    fun v n hn => ⟨shl_eq_zero v (by omega), shr_eq_zero v (by omega)⟩, fun v => ⟨shiftEast_eight v, shiftWest_eight v⟩⟩
  · exact eq_iterate_of_succ (shiftNorth_zero v) (fun k _ => shiftNorth_succ v k) n hn
  · exact eq_iterate_of_succ (shiftSouth_zero v) (fun k _ => shiftSouth_succ v k) n hn
  · exact eq_iterate_of_succ (shiftEast_zero v) (fun _ hk => shiftEast_succ hk v) n hn
  · exact eq_iterate_of_succ (shiftWest_zero v) (fun _ hk => shiftWest_succ hk v) n hn

end Sys2Proof
end

section
/-! The Kogge-Stone rounds as walks (R150 to R152). A round that knows every walk of fewer than `n` open steps, and which
squares lie `n` open steps apart, gives the same for `2 * n`; three rounds cover the longest ray of the board. -/

namespace Sys2Proof.Machine

/-! ### Rays (R11) -/

theorem ray_succ_eq_some_iff {d : Dir} {o k q : Nat} :
    ray d o (k + 1) = some q ↔ ∃ p, ray d o k = some p ∧ neighbour d p = some q := Option.bind_eq_some_iff

theorem neighbour_lt {d : Dir} {o q : Nat} (h : neighbour d o = some q) : q < 64 := (neighbour_eq_some h).1

/-- A ray from the board stays on it. -/
theorem ray_lt {d : Dir} {o q : Nat} (ho : o < 64) : ∀ {k : Nat}, ray d o k = some q → q < 64
  | 0, h => by cases h; exact ho
  | _ + 1, h => by
    obtain ⟨_, -, hstep⟩ := ray_succ_eq_some_iff.mp h
    exact neighbour_lt hstep

/-- `k` steps change the file and the rank `k` times as one does. -/
theorem ray_coordinates {d : Dir} {o : Nat} : ∀ {k q : Nat}, ray d o k = some q →
    (fileOf q : Int) = fileOf o + k * dirFile d ∧ (rankOf q : Int) = rankOf o + k * dirRank d
  | 0, q, h => by cases h; simp
  | k + 1, q, h => by
    obtain ⟨p, hray, hstep⟩ := ray_succ_eq_some_iff.mp h
    obtain ⟨hfile, hrank⟩ := ray_coordinates hray
    obtain ⟨-, hfile', hrank'⟩ := neighbour_eq_some hstep
    push_cast
    constructor <;> linarith

theorem ray_offset {d : Dir} {o k q : Nat} (h : ray d o k = some q) : (q : Int) = o + k * dirOffset d := by
  obtain ⟨hfile, hrank⟩ := ray_coordinates h
  have ho := squareAt_fileOf_rankOf o
  have hq := squareAt_fileOf_rankOf q
  simp only [squareAt] at ho hq
  rw [dirOffset_eq, mul_add, mul_left_comm]
  omega

/-- A ray of the board has at most seven steps, since each changes the file or the rank by one (R152). -/
theorem ray_steps_lt {d : Dir} {o k q : Nat} (ho : o < 64) (h : ray d o k = some q) : k < 8 := by
  have hq := ray_lt ho h
  obtain ⟨hfile, hrank⟩ := ray_coordinates h
  simp only [fileOf, rankOf] at hfile hrank
  cases d <;> simp only [dirFile, dirRank] at hfile hrank <;> omega

/-- A ray never comes back: every step has the same nonzero offset. -/
theorem ray_ne_origin {d : Dir} {o k q : Nat} (h : ray d o (k + 1) = some q) : q ≠ o := by
  have hoff := ray_offset h
  cases d <;> simp only [dirOffset] at hoff <;> omega

/-! ### Rays over open squares (R152) -/

/-- `q` lies `k` steps from `o`, and every square after `o` up to `q` is in `e`. -/
def OpenRay (d : Dir) (e : Word) (o k q : Nat) : Prop :=
  ray d o k = some q ∧ ∀ j, 1 ≤ j → j ≤ k → OpenAt d e o j

section
variable {d : Dir} {e : Word} {o q : Nat}

theorem openRay_zero : OpenRay d e o 0 q ↔ o = q := by
  refine ⟨fun h => Option.some.inj h.1, ?_⟩
  rintro rfl
  exact ⟨rfl, fun j hj hj0 => by omega⟩

/-- Where only the squares strictly between need to be open, the last step is free (R171 (a)). -/
theorem openBefore_iff {k : Nat} : (ray d o (k + 1) = some q ∧ ∀ j, 1 ≤ j → j < k + 1 → OpenAt d e o j) ↔
    ∃ p, OpenRay d e o k p ∧ neighbour d p = some q := by
  simp only [ray_succ_eq_some_iff, OpenRay, Nat.lt_succ_iff, and_right_comm, exists_and_right]

theorem openRay_succ {k : Nat} : OpenRay d e o (k + 1) q ↔
    ∃ p, OpenRay d e o k p ∧ neighbour d p = some q ∧ e.getLsbD q = true := by
  constructor
  · rintro ⟨hray, hopen⟩
    obtain ⟨p, hp, hstep⟩ := openBefore_iff.mp ⟨hray, fun j h1 hj => hopen j h1 hj.le⟩
    obtain ⟨r, hr, hmem⟩ := hopen (k + 1) (by omega) le_rfl
    obtain rfl : q = r := Option.some.inj (hray.symm.trans hr)
    exact ⟨p, hp, hstep, hmem⟩
  · rintro ⟨p, hp, hstep, hmem⟩
    obtain ⟨hray, hopen⟩ := openBefore_iff.mpr ⟨p, hp, hstep⟩
    refine ⟨hray, fun j h1 hj => ?_⟩
    obtain hj | rfl := hj.lt_or_eq
    · exact hopen j h1 hj
    · exact ⟨q, hray, hmem⟩

/-- A walk of `j + k` open steps is one of `j` and then one of `k`. -/
theorem openRay_add {j : Nat} : ∀ {k q : Nat}, OpenRay d e o (j + k) q ↔ ∃ p, OpenRay d e o j p ∧ OpenRay d e p k q
  | 0, q => by simp [openRay_zero]
  | k + 1, q => by
    rw [← Nat.add_assoc, openRay_succ]
    simp only [openRay_add (k := k), openRay_succ]
    constructor
    · rintro ⟨r, ⟨p, hp, hr⟩, hstep⟩
      exact ⟨p, hp, r, hr, hstep⟩
    · rintro ⟨p, hp, r, hr, hstep⟩
      exact ⟨r, ⟨p, hp, hr⟩, hstep⟩

/-- With nothing open a walk stays at its origin. -/
theorem openRay_empty {k : Nat} : OpenRay d 0 o k q ↔ k = 0 ∧ o = q := by
  cases k with
  | zero => simp [openRay_zero]
  | succ k => simp [openRay_succ]

theorem fullBoard_getLsbD (hq : q < 64) : fullBoard.getLsbD q = true := by
  rw [show fullBoard = BitVec.allOnes 64 from rfl, BitVec.getLsbD_allOnes, decide_eq_true hq]

/-- With everything open a walk is a ray. -/
theorem openRay_full : ∀ {k q : Nat}, OpenRay d fullBoard o k q ↔ ray d o k = some q
  | 0, q => by simp [openRay_zero, ray]
  | k + 1, q => by
    rw [openRay_succ, ray_succ_eq_some_iff]
    exact exists_congr fun p => and_congr openRay_full
      (and_iff_left_of_imp fun hstep => fullBoard_getLsbD (neighbour_lt hstep))

/-! ### One round (R151) -/

section
variable (hq : q < 64)
include hq

theorem fillGrow_getLsbD_iff (k : Int) (g p : Word) : (fillGrow k g p).getLsbD q = true ↔
    g.getLsbD q = true ∨ p.getLsbD q = true ∧ ∃ o, o < 64 ∧ g.getLsbD o = true ∧ (q : Int) = o + k := by
  rw [fillGrow, BitVec.getLsbD_or, BitVec.getLsbD_and, Bool.or_eq_true, Bool.and_eq_true, rsh_getLsbD_iff hq]

theorem fillNarrow_getLsbD_iff (k : Int) (p : Word) : (fillNarrow k p).getLsbD q = true ↔
    p.getLsbD q = true ∧ ∃ o, o < 64 ∧ p.getLsbD o = true ∧ (q : Int) = o + k := by
  rw [fillNarrow, BitVec.getLsbD_and, Bool.and_eq_true, rsh_getLsbD_iff hq]

end

end

/-- What `g` and `p` hold before a round with hop `n`: `g` the squares fewer than `n` open steps from an origin, and `p`,
of two board squares `n` offsets apart, whether the second is `n` open steps from the first. (Of a square with no board
square `n` offsets before it nothing is said: no walk asks `p` for it.) -/
structure FillCovers (d : Dir) (s e : Word) (n : Nat) (g p : Word) : Prop where
  reached : ∀ q, q < 64 → (g.getLsbD q = true ↔ ∃ o k, k < n ∧ s.getLsbD o = true ∧ OpenRay d e o k q)
  opened : ∀ o q : Nat, o < 64 → q < 64 → (q : Int) = o + n * dirOffset d → (p.getLsbD q = true ↔ OpenRay d e o n q)

/-- Before the first round: the origins, and the single steps into open squares that do not wrap. -/
theorem fillCovers_one (d : Dir) (s e : Word) : FillCovers d s e 1 s (e &&& preMask d) where
  reached q hq := by simp [openRay_zero]
  opened o q ho hq hoff := by
    rw [Nat.cast_one, one_mul] at hoff
    have hstep : neighbour d o = some q ↔ (preMask d).getLsbD q = true := by
      rw [neighbour_eq_some_iff hq, preMask_getLsbD_iff hq, and_iff_right hoff]
    simp only [openRay_succ, openRay_zero, exists_eq_left', hstep, BitVec.getLsbD_and, Bool.and_eq_true, and_comm]

/-- A round with hop `n` doubles what is covered. -/
theorem FillCovers.round {d : Dir} {s e g p : Word} {n : Nat} (h : FillCovers d s e n g p) {k : Int}
    (hk : k = n * dirOffset d) : FillCovers d s e (n + n) (fillGrow k g p) (fillNarrow k p) where
  reached q hq := by
    rw [fillGrow_getLsbD_iff hq, h.reached q hq]
    constructor
    · rintro (⟨o, i, hi, ho, hwalk⟩ | ⟨hp, m, hm, hg, hoff⟩)
      · exact ⟨o, i, by omega, ho, hwalk⟩
      · obtain ⟨o, i, hi, ho, hwalk⟩ := (h.reached m hm).mp hg
        exact ⟨o, i + n, by omega, ho, openRay_add.mpr ⟨m, hwalk, (h.opened m q hm hq (hk ▸ hoff)).mp hp⟩⟩
    · rintro ⟨o, i, hi, ho, hwalk⟩
      obtain hlt | hle := Nat.lt_or_ge i n
      · exact .inl ⟨o, i, hlt, ho, hwalk⟩
      · obtain ⟨i, rfl⟩ := Nat.exists_eq_add_of_le' hle
        obtain ⟨m, hfirst, hlast⟩ := openRay_add.mp hwalk
        have hm : m < 64 := ray_lt (BitVec.lt_of_getLsbD ho) hfirst.1
        have hoff := ray_offset hlast.1
        exact .inr ⟨(h.opened m q hm hq hoff).mpr hlast, m, hm,
          (h.reached m hm).mpr ⟨o, i, by omega, ho, hfirst⟩, hk ▸ hoff⟩
  opened o q ho hq hoff := by
    rw [fillNarrow_getLsbD_iff hq, openRay_add]
    rw [Nat.cast_add, add_mul] at hoff
    constructor
    · rintro ⟨hlast, m, hm, hfirst, hmq⟩
      exact ⟨m, (h.opened o m ho hm (by omega)).mp hfirst, (h.opened m q hm hq (by omega)).mp hlast⟩
    · rintro ⟨m, hfirst, hlast⟩
      have hm : m < 64 := ray_lt ho hfirst.1
      have hmq := ray_offset hlast.1
      exact ⟨(h.opened m q hm hq hmq).mpr hlast, m, hm,
        (h.opened o m ho hm (ray_offset hfirst.1)).mpr hfirst, hk ▸ hmq⟩

/-! ### The fill and the attack as walks (R152, R162) -/

section
variable {q : Nat} (hq : q < 64)
include hq

/-- Three rounds reach every square at the end of an open walk from an origin. -/
theorem fill_getLsbD_iff (d : Dir) (s e : Word) :
    (fill d s e).getLsbD q = true ↔ ∃ o k, s.getLsbD o = true ∧ OpenRay d e o k q := by
  have first := (fillCovers_one d s e).round (k := dirOffset d) (by simp)
  have second := first.round (k := 2 * dirOffset d) rfl
  have third := second.round (k := 4 * dirOffset d) rfl
  rw [fill, third.reached q hq]
  constructor
  · rintro ⟨o, k, -, ho, hwalk⟩
    exact ⟨o, k, ho, hwalk⟩
  · rintro ⟨o, k, ho, hwalk⟩
    exact ⟨o, k, ray_steps_lt (BitVec.lt_of_getLsbD ho) hwalk.1, ho, hwalk⟩

/-- The attack takes one step more from the end of such a walk, into whatever stands there. -/
theorem attack_getLsbD_iff (d : Dir) (s e : Word) : (attack d s e).getLsbD q = true ↔
    ∃ o k, s.getLsbD o = true ∧ ∃ p, OpenRay d e o k p ∧ neighbour d p = some q := by
  rw [attack, stepDir_getLsbD_iff d _ hq]
  constructor
  · rintro ⟨p, hp, hmem, hstep⟩
    obtain ⟨o, k, ho, hwalk⟩ := (fill_getLsbD_iff hp d s e).mp hmem
    exact ⟨o, k, ho, p, hwalk, hstep⟩
  · rintro ⟨o, k, ho, p, hwalk, hstep⟩
    have hp : p < 64 := ray_lt (BitVec.lt_of_getLsbD ho) hwalk.1
    exact ⟨p, hp, (fill_getLsbD_iff hp d s e).mpr ⟨o, k, ho, hwalk⟩, hstep⟩

/-- On the full board the attack is every ray without its origin (R171 (c)). -/
theorem attack_full_getLsbD_iff (d : Dir) (s : Word) : (attack d s fullBoard).getLsbD q = true ↔
    ∃ o k, s.getLsbD o = true ∧ ray d o (k + 1) = some q := by
  simp only [attack_getLsbD_iff hq, openRay_full, ray_succ_eq_some_iff]

end

section
variable (d : Dir) (s e : Word) (q : Nat)

theorem fillReaches_iff : FillReaches d s e q ↔ ∃ o k, s.getLsbD o = true ∧ OpenRay d e o k q := by
  constructor
  · rintro (hs | ⟨o, k, -, ho, -, -, hray, hopen⟩)
    · exact ⟨q, 0, hs, openRay_zero.mpr rfl⟩
    · exact ⟨o, k, ho, hray, hopen⟩
  · rintro ⟨o, k, ho, hwalk⟩
    cases k with
    | zero =>
      obtain rfl := openRay_zero.mp hwalk
      exact .inl ho
    | succ k =>
      have hlt : o < 64 := BitVec.lt_of_getLsbD ho
      obtain ⟨hray, hopen⟩ := hwalk
      exact .inr ⟨o, k + 1, hlt, ho, by omega, Nat.le_of_lt_succ (ray_steps_lt hlt hray), hray, hopen⟩

theorem attackReaches_iff : AttackReaches d s e q ↔
    ∃ o k, s.getLsbD o = true ∧ ∃ p, OpenRay d e o k p ∧ neighbour d p = some q := by
  constructor
  · rintro ⟨o, k, -, ho, hk, hwalk⟩
    obtain ⟨k, rfl⟩ := Nat.exists_eq_add_of_le' hk
    exact ⟨o, k, ho, openBefore_iff.mp hwalk⟩
  · rintro ⟨o, k, ho, hwalk⟩
    exact ⟨o, k + 1, BitVec.lt_of_getLsbD ho, ho, by omega, openBefore_iff.mpr hwalk⟩

end

/-- With an empty mask nothing is added to the origins (R153 (b)). -/
theorem fill_empty (d : Dir) (s : Word) : fill d s 0 = s := by
  refine word_eq_of_members fun q hq => ?_
  rw [fill_getLsbD_iff hq]
  constructor
  · rintro ⟨o, k, ho, hwalk⟩
    obtain ⟨-, rfl⟩ := openRay_empty.mp hwalk
    exact ho
  · exact fun hs => ⟨q, 0, hs, openRay_zero.mpr rfl⟩

/-! ### The rounds written out (R154 to R161) -/

theorem rsh_natCast (v : Word) (k : Nat) : rsh v k = v <<< k := rsh_of_nonneg v (Int.natCast_nonneg k)

theorem rsh_neg_natCast (v : Word) (k : Nat) : rsh v (-k) = v >>> k := by
  cases k with
  | zero => simp [rsh, shl]
  | succ k => rw [rsh_of_neg v (by omega), neg_neg, Int.toNat_natCast, shr]

theorem fill_eq_roundsLeft {d : Dir} {k : Nat} (h : dirOffset d = k) (s e : Word) :
    fill d s e = roundsLeft k (preMask d) s e := by
  have h2 : 2 * dirOffset d = (2 * k : Nat) := by rw [h, Nat.cast_mul, Nat.cast_ofNat]
  have h4 : 4 * dirOffset d = (4 * k : Nat) := by rw [h, Nat.cast_mul, Nat.cast_ofNat]
  simp only [fill, fillGrow, fillNarrow, roundsLeft, h2, h4]
  simp only [h, rsh_natCast]

theorem fill_eq_roundsRight {d : Dir} {k : Nat} (h : dirOffset d = -k) (s e : Word) :
    fill d s e = roundsRight k (preMask d) s e := by
  have h2 : 2 * dirOffset d = -(2 * k : Nat) := by rw [h, Nat.cast_mul, Nat.cast_ofNat, mul_neg]
  have h4 : 4 * dirOffset d = -(4 * k : Nat) := by rw [h, Nat.cast_mul, Nat.cast_ofNat, mul_neg]
  simp only [fill, fillGrow, fillNarrow, roundsRight, h2, h4]
  simp only [h, rsh_neg_natCast]

theorem attack_eq_step_roundsLeft {d : Dir} {k : Nat} (h : dirOffset d = k) (s e : Word) :
    attack d s e = stepDir d (roundsLeft k (preMask d) s e) := congrArg (stepDir d) (fill_eq_roundsLeft h s e)

theorem attack_eq_step_roundsRight {d : Dir} {k : Nat} (h : dirOffset d = -k) (s e : Word) :
    attack d s e = stepDir d (roundsRight k (preMask d) s e) := congrArg (stepDir d) (fill_eq_roundsRight h s e)

/-- An instruction with two sources and no RANGE completes with what any form of its function gives. -/
theorem completes_of_binary {i : Instr} {s : State} {rd x y : Reg} {f g : Word → Word → Word}
    (hread : Readable s [x, y]) (hexec : exec i s = binary rd x y f s) (hfg : ∀ v w, f v w = g v w) :
    Completes i s rd (g (s.readB x) (s.readB y)) := by
  rw [Completes, hexec, ← hfg]
  exact binary_wrote (hread x (by simp)) (hread y (by simp)) rd f

end Sys2Proof.Machine
end

section
/-! The obligations of fill and attack (R150 to R171). -/

namespace Sys2Proof

open Sys2Proof.Machine

/-- Settles O26: both sides are the open walks from an origin. -/
theorem fillIsTheOccludedReach : Obligations.FillIsTheOccludedReach := fun d s e q hq =>
  (fill_getLsbD_iff hq d s e).trans (fillReaches_iff d s e q).symm

/-- Settles O27: walks without an origin, without an open square, of no step, and with every square open. -/
theorem fillEdgeCases : Obligations.FillEdgeCases := by
  refine fun d s e => ⟨word_eq_zero_of_no_member fun q hq => ?_, fill_empty d s, fun q hs => ?_, fun q hq => ?_⟩
  · rw [← Bool.not_eq_true, fill_getLsbD_iff hq]
    simp
  · exact (fill_getLsbD_iff (BitVec.lt_of_getLsbD hs) d s e).mpr ⟨q, 0, hs, openRay_zero.mpr rfl⟩
  · simp only [fill_getLsbD_iff hq, openRay_full]
    exact exists₂_congr fun o k => (and_iff_right_of_imp fun h => BitVec.lt_of_getLsbD h.1).symm

/-- Settles O28: the walks of the fill with one step more. -/
theorem attackIsTheRayUpToTheBlocker : Obligations.AttackIsTheRayUpToTheBlocker := by
  refine ⟨fun d s e q hq => (attack_getLsbD_iff hq d s e).trans (attackReaches_iff d s e q).symm,
    fun d s => by rw [attack, fill_empty], fun d o q ho hq => ?_, fun d s e q hmem => ?_, by decide, by decide, by decide,
    by decide⟩
  · rw [attack_full_getLsbD_iff hq]
    constructor
    · rintro ⟨r, k, hr, hray⟩
      obtain rfl := (squareMask_getLsbD_iff (BitVec.lt_of_getLsbD hr) o).mp hr
      exact ⟨ray_ne_origin hray, k + 1, hray⟩
    · rintro ⟨hne, k, hray⟩
      cases k with
      | zero => exact absurd (Option.some.inj hray).symm hne
      | succ k => exact ⟨o, k, (squareMask_getLsbD_iff ho o).mpr rfl, hray⟩
  · obtain ⟨o, k, -, ho, hk, hray, -⟩ :=
      (attackReaches_iff d s e q).mpr ((attack_getLsbD_iff (BitVec.lt_of_getLsbD hmem) d s e).mp hmem)
    exact ⟨o, k, ho, hk, hray⟩

/-- Settles O24: each fill's offset and pre-mask put into the written-out rounds. -/
theorem fillsRunThreeRounds : Obligations.FillsRunThreeRounds := by
  refine ⟨?_, ?_, ?_, ?_, ?_, ?_, ?_, ?_, fun s rd rs1 rs2 _ hread =>
    ⟨completes_of_binary hread rfl (fill_eq_roundsLeft (d := .n) rfl),
      completes_of_binary hread rfl (fill_eq_roundsLeft (d := .ne) rfl),
      completes_of_binary hread rfl (fill_eq_roundsLeft (d := .e) rfl),
      completes_of_binary hread rfl (fill_eq_roundsRight (d := .se) rfl),
      completes_of_binary hread rfl (fill_eq_roundsRight (d := .s) rfl),
      completes_of_binary hread rfl (fill_eq_roundsRight (d := .sw) rfl),
      completes_of_binary hread rfl (fill_eq_roundsRight (d := .w) rfl),
      completes_of_binary hread rfl (fill_eq_roundsLeft (d := .nw) rfl)⟩⟩
  all_goals exact encodedR_of_decode (by decide) fun w hop => by simp only [decode, hop]

/-- Settles O25: the direction's single step of the same rounds. -/
theorem attacksStepOnceAfterTheFill : Obligations.AttacksStepOnceAfterTheFill := by
  refine ⟨?_, ?_, ?_, ?_, ?_, ?_, ?_, ?_, fun s rd rs1 rs2 _ hread =>
    ⟨completes_of_binary hread rfl (attack_eq_step_roundsLeft (d := .n) rfl),
      completes_of_binary hread rfl (attack_eq_step_roundsLeft (d := .ne) rfl),
      completes_of_binary hread rfl (attack_eq_step_roundsLeft (d := .e) rfl),
      completes_of_binary hread rfl (attack_eq_step_roundsRight (d := .se) rfl),
      completes_of_binary hread rfl (attack_eq_step_roundsRight (d := .s) rfl),
      completes_of_binary hread rfl (attack_eq_step_roundsRight (d := .sw) rfl),
      completes_of_binary hread rfl (attack_eq_step_roundsRight (d := .w) rfl),
      completes_of_binary hread rfl (attack_eq_step_roundsLeft (d := .nw) rfl)⟩⟩
  all_goals exact encodedR_of_decode (by decide) fun w hop => by simp only [decode, hop]

end Sys2Proof
end

section
/-! The members of a set as an increasing list: its length and head are what POPCNT and LSB compute, its tail what CLRLSB
leaves (R180 to R182), so the rounds of the iteration protocol consume it (R183, R184). -/

namespace Sys2Proof.Machine

/-! ### The increasing list of the members -/

theorem mem_squaresOf {v : Word} {q : Nat} : q ∈ squaresOf v ↔ q < 64 ∧ v.getLsbD q = true := by
  rw [squaresOf, List.mem_filter, List.mem_range]

theorem squaresOf_increasing (v : Word) : (squaresOf v).Pairwise (· < ·) := List.pairwise_lt_range.filter _

/-- Only one increasing list has exactly the members of a set. -/
theorem squaresOf_eq_of_increasing {v : Word} {l : List Nat} (hl : l.Pairwise (· < ·))
    (hmem : ∀ q, q ∈ l ↔ q < 64 ∧ v.getLsbD q = true) : squaresOf v = l :=
  (squaresOf_increasing v).eq_of_mem_iff hl fun q => mem_squaresOf.trans (hmem q).symm

theorem length_squaresOf (v : Word) : (squaresOf v).length = memberCount v := by
  have hnodup : (squaresOf v).Nodup := (squaresOf_increasing v).imp Nat.ne_of_lt
  have hmembers : (squaresOf v).toFinset =
      (Finset.univ.filter fun i : Fin 64 => v.getLsbD i = true).map Fin.valEmbedding := by
    ext q
    rw [List.mem_toFinset, mem_squaresOf]
    simp [Fin.exists_iff, and_comm, -BitVec.getLsbD_eq_getElem]
  rw [memberCount, ← List.toFinset_card_of_nodup hnodup, hmembers, Finset.card_map]

theorem squaresOf_squareMask {q : Nat} (hq : q < 64) : squaresOf (squareMask q) = [q] := by
  refine squaresOf_eq_of_increasing (List.pairwise_singleton _ q) fun r => ?_
  rw [List.mem_singleton]
  exact ⟨fun h => ⟨h ▸ hq, (squareMask_getLsbD_iff (h ▸ hq) q).mpr h⟩, fun h => (squareMask_getLsbD_iff h.1 q).mp h.2⟩

theorem eq_zero_of_squaresOf_eq_nil {v : Word} (h : squaresOf v = []) : v = 0 :=
  word_eq_zero_of_no_member fun q hq => by
    rw [← Bool.not_eq_true]
    exact fun hmem => List.not_mem_nil (h ▸ mem_squaresOf.mpr ⟨hq, hmem⟩)

/-! ### Count, lowest member, removal (R180 to R182) -/

theorem popcount_eq_memberCount (v : Word) : popcount v = memberCount v := by
  rw [popcount, List.countP_eq_length_filter, ← squaresOf, length_squaresOf]

theorem lowestBit_eq_head (v : Word) : lowestBit v = (squaresOf v).head?.getD 64 := by
  rw [lowestBit, squaresOf, List.head?_filter]

theorem lowestBit_zero : lowestBit 0 = 64 := by decide

theorem lowestBit_eq {v : Word} {i : Nat} (hi : i < 64) (hmem : v.getLsbD i = true)
    (hleast : ∀ j, j < i → v.getLsbD j = false) : lowestBit v = i := by
  have hfind : (List.range 64).find? (fun q => v.getLsbD q) = some i :=
    List.find?_range_eq_some.mpr ⟨hmem, List.mem_range.mpr hi, fun j hj => by simp [hleast j hj]⟩
  rw [lowestBit, hfind, Option.getD_some]

theorem clearLowest_eq (v : Word) : clearLowest v = v &&& (v - 1) := by
  unfold clearLowest
  split
  next h => rw [h]; exact BitVec.zero_and.symm
  next => rfl

/-- `v - 1` is the complement of `-v`, which inverts the bits above the lowest member of `v` (R182). -/
theorem clearLowest_getLsbD_iff {v : Word} {q : Nat} :
    (clearLowest v).getLsbD q = true ↔ v.getLsbD q = true ∧ ∃ j, j < q ∧ v.getLsbD j = true := by
  rw [clearLowest_eq, BitVec.ofNat_eq_ofNat, ← BitVec.not_neg, BitVec.getLsbD_and, Bool.and_eq_true]
  refine and_congr_right fun hmem => ?_
  have hq : q < 64 := BitVec.lt_of_getLsbD hmem
  rw [BitVec.getLsbD_not, BitVec.getLsbD_neg, hmem, decide_eq_true hq]
  simp

/-- CLRLSB leaves every member but the first. -/
theorem squaresOf_clearLowest (v : Word) : squaresOf (clearLowest v) = (squaresOf v).tail := by
  have hsorted := squaresOf_increasing v
  have hmem {q : Nat} : q ∈ squaresOf v ↔ q < 64 ∧ v.getLsbD q = true := mem_squaresOf
  refine squaresOf_eq_of_increasing (hsorted.sublist (List.tail_sublist _)) fun p => ?_
  rw [clearLowest_getLsbD_iff, ← and_assoc, ← hmem]
  have hbelow : (∃ j, j < p ∧ v.getLsbD j = true) ↔ ∃ j ∈ squaresOf v, j < p :=
    ⟨fun ⟨j, hlt, hj⟩ => ⟨j, hmem.mpr ⟨BitVec.lt_of_getLsbD hj, hj⟩, hlt⟩, fun ⟨j, hj, hlt⟩ => ⟨j, hlt, (hmem.mp hj).2⟩⟩
  rw [hbelow]
  cases hv : squaresOf v with
  | nil => simp
  | cons q rest =>
    rw [hv, List.pairwise_cons] at hsorted
    obtain ⟨hfirst, -⟩ := hsorted
    rw [List.tail_cons]
    constructor
    · exact fun hp => ⟨List.mem_cons_of_mem q hp, q, List.mem_cons_self, hfirst p hp⟩
    · rintro ⟨hp, j, hj, hlt⟩
      have hle : q ≤ j := (List.mem_cons.mp hj).elim (·.ge) fun hrest => (hfirst j hrest).le
      exact (List.mem_cons.mp hp).resolve_left (by omega)

theorem memberCount_clearLowest {v : Word} (h : v ≠ 0) : memberCount (clearLowest v) + 1 = memberCount v := by
  have hne : squaresOf v ≠ [] := fun hnil => h (eq_zero_of_squaresOf_eq_nil hnil)
  rw [← length_squaresOf, ← length_squaresOf, squaresOf_clearLowest, List.length_tail,
    Nat.sub_add_cancel (List.length_pos_iff.mpr hne)]

section
variable {s : State} {x : Reg} (hx : s.isWritten x = true) (rd : Reg)
include hx

theorem lsb_completes : Completes (.lsb rd x) s rd (BitVec.ofNat 64 (lowestBit (s.readB x))) :=
  unary_wrote hx rd fun v => BitVec.ofNat 64 (lowestBit v)

theorem clrlsb_completes : Completes (.clrlsb rd x) s rd (clearLowest (s.readB x)) := unary_wrote hx rd clearLowest

end

/-! ### The rounds of the protocol (R183, R184) -/

/-- What rounds with cursor `c` and index register `i` leave, as far as R184 tells: the cursor holds `v`, and FAULT, the
model fault and every register but these two are as before. -/
structure CursorAt (c i : Reg) (v : Word) (s u : State) : Prop where
  cursor : u.readB c = v
  marked : u.isWritten c = true
  model : u.modelFault = s.modelFault
  fault : u.fault = s.fault
  others : ∀ r, r ≠ c → r ≠ i → u.readB r = s.readB r

section
variable {c i : Reg}

theorem CursorAt.trans {v w : Word} {s t u : State} (hst : CursorAt c i v s t) (htu : CursorAt c i w t u) :
    CursorAt c i w s u where
  cursor := htu.cursor
  marked := htu.marked
  model := htu.model.trans hst.model
  fault := htu.fault.trans hst.fault
  others r hrc hri := (htu.others r hrc hri).trans (hst.others r hrc hri)

variable (hne : i ≠ c)
include hne

/-- One round reads the lowest member and moves the cursor past it. -/
theorem iterationRounds_succ {s : State} (hc : s.isWritten c = true) : ∃ t, CursorAt c i (clearLowest (s.readB c)) s t ∧
    ∀ n, iterationRounds c i (n + 1) s =
      (iterationRounds c i n t).map fun out => (BitVec.ofNat 64 (lowestBit (s.readB c)) :: out.1, out.2) := by
  obtain ⟨t, hlsb, ht⟩ := lsb_completes hc i
  obtain ⟨hcursor, hmarked⟩ := ht.others c hne.symm
  obtain ⟨u, hclr, hu⟩ := clrlsb_completes (hmarked.trans hc) c
  rw [hcursor] at hu
  refine ⟨u, ⟨hu.value, hu.marked, hu.model.trans ht.model, hu.rest.fault.trans ht.rest.fault,
    fun r hrc hri => (hu.others r hrc).1.trans (ht.others r hri).1⟩, fun n => ?_⟩
  simp only [iterationRounds, hlsb, hclr, nextOf, Option.bind_some, ht.value]

/-- As many rounds as there are members and one more read the members in order, then 64, and empty the cursor. -/
theorem iterationRounds_of_squaresOf : ∀ {l : List Nat} {s : State}, s.isWritten c = true → squaresOf (s.readB c) = l →
    ∃ u, iterationRounds c i (l.length + 1) s = some (l.map (BitVec.ofNat 64) ++ [64], u) ∧ CursorAt c i 0 s u
  | l, s, hc, hl => by
    obtain ⟨t, ht, hround⟩ := iterationRounds_succ hne hc
    have hlow := lowestBit_eq_head (s.readB c)
    have hclear := squaresOf_clearLowest (s.readB c)
    rw [hl] at hlow hclear
    rw [hround, hlow]
    cases l with
    | nil =>
      rw [eq_zero_of_squaresOf_eq_nil hclear] at ht
      exact ⟨t, rfl, ht⟩
    | cons q rest =>
      obtain ⟨u, hrest, hu⟩ := iterationRounds_of_squaresOf (l := rest) ht.marked (ht.cursor ▸ hclear)
      exact ⟨u, by rw [List.length_cons, hrest]; rfl, ht.trans hu⟩

end

end Sys2Proof.Machine
end

section
/-! The obligations of count and iterate (R180 to R184). -/

namespace Sys2Proof

open Sys2Proof.Machine

/-- Settles O32: the members in order are consumed one a round. -/
theorem iterationYieldsTheSquaresInOrder : Obligations.IterationYieldsTheSquaresInOrder := by
  refine ⟨fun v => ⟨length_squaresOf v, squaresOf_increasing v, fun _ => mem_squaresOf⟩, fun _ => squaresOf_squareMask,
    by decide, fun s c i hne hfault hread => ?_⟩
  obtain ⟨u, hrun, hu⟩ := iterationRounds_of_squaresOf hne (hread c (by simp)) rfl
  rw [length_squaresOf] at hrun
  exact ⟨u, hrun, hu.cursor, hu.model, hu.fault.trans hfault, hu.others⟩

/-- Settles O29: the model counts the members. -/
theorem popcntCountsTheMembers : Obligations.PopcntCountsTheMembers := by
  refine ⟨encodedU_of_decode (by decide) fun w hop => by simp only [decode, hop], fun s rd rs1 _ hread => ?_⟩
  rw [← popcount_eq_memberCount]
  exact unary_wrote (hread rs1 (by simp)) rd fun v => BitVec.ofNat 64 (popcount v)

/-- Settles O30: the first member found, or none. -/
theorem lsbFindsTheLowestMember : Obligations.LsbFindsTheLowestMember := by
  refine ⟨encodedU_of_decode (by decide) fun w hop => by simp only [decode, hop], fun s rd rs1 _ hread => ?_⟩
  have found := lsb_completes (hread rs1 (by simp)) rd
  constructor
  · intro hempty
    rwa [hempty, lowestBit_zero] at found
  · intro i hi hmem hleast
    rwa [lowestBit_eq hi hmem hleast] at found

/-- Settles O31: the formula clears the lowest member and no other. -/
theorem clrlsbRemovesTheLowestMember : Obligations.ClrlsbRemovesTheLowestMember := by
  refine ⟨encodedU_of_decode (by decide) fun w hop => by simp only [decode, hop], fun s rd rs1 _ hread => ?_⟩
  have cleared := clrlsb_completes (hread rs1 (by simp)) rd
  rw [← clearLowest_eq]
  refine ⟨cleared, fun hempty => ?_, memberCount_clearLowest⟩
  rwa [hempty] at cleared

end Sys2Proof
end

section
/-! The faults (R202 to R206): which commands raise RANGE, what fault entry writes, what a FAULTED unit still does, and the
one way out. -/

namespace Sys2Proof.Machine

theorem UnitKept.of_taken {s t : State} (h : UnitKept (taken s) t) : UnitKept s t :=
  ⟨h.b, h.written, h.fault, h.cause, h.faultInsn⟩

/-- No transaction of a FAULTED unit but Reset changes it (R205): the others that change a unit need one that is not. -/
theorem Effect.unitKept_of_faulted {x : HostTx} {s t : State} (h : Effect x s t) (hf : s.fault = true)
    (hx : x ≠ .reset) : UnitKept s t := by
  cases h with
  | reset hreset => exact absurd hreset hx
  | hostWrote hgood | illegal hgood | wrote hgood | range hgood | commandEnded hgood =>
    exact Bool.noConfusion (hgood.symm.trans hf)
  | @readEnded r =>
    obtain ⟨-, -, hkept⟩ := endRun_kept s r
    exact hkept
  | answered => exact unitKept_reply s _

end Sys2Proof.Machine

namespace Sys2Proof

open Sys2Proof.Machine

/-- Settles O8: the value an instruction retires with is missing exactly under the list of R202. -/
theorem rangeListIsComplete : Obligations.RangeListIsComplete := by
  refine fun i s _ _ hread => ⟨raisesRange_of_outOfRange hread, fun hrange => ?_⟩
  obtain ⟨v, hexec⟩ := exec_of_inRange hread hrange
  exact ⟨v, _, hexec, wrote_writeB s (destOf i) v⟩

/-- Settles O33: the two fault entries among the outcomes of an issued word. -/
theorem faultEntryIsPrecise : Obligations.FaultEntryIsPrecise := by
  intro s x rest w hm hp hx hf
  obtain ⟨-, illegal, legal⟩ := outcomesAreTakenInPriorityOrder s x rest w hm hp hx
  refine ⟨illegal hf, fun i hd => ?_⟩
  obtain ⟨-, range, -⟩ := legal i hf hd
  exact range

/-- Settles O34: each kind of transaction on a FAULTED unit, then what all of them but Reset keep. -/
theorem faultedUnitRejectsCommandsAndWrites : Obligations.FaultedUnitRejectsCommandsAndWrites := by
  intro s x rest hm hp hf
  have hstep := step_of_pending hm hp
  refine ⟨fun w hx => ?_, fun r v hx => ?_, fun r hx hw => ?_, ?_, ?_, ?_, fun t hx ht => ?_⟩
  · rw [hstep, transact_of_issues hx, issue_rejected (s := taken s) hf]
  · rw [hstep, transact_of_hostWrites hx, hostWriteReg_rejected (s := taken s) hf]
  · rw [hstep, transact_of_hostReads hx]
    exact hostReadReg_of_written (s := taken s) hw
  · rintro rfl
    exact hstep
  · rintro rfl
    exact hstep
  · rintro a v rfl hlow hcmd
    rw [hstep, transact_portWrite_ignored hlow hcmd]
  · exact ((effect_of_step hp ht).unitKept_of_faulted hf hx).of_taken

/-- Settles O35: a step that is not a Reset keeps a FAULTED unit, STATUS.FAULT included. -/
theorem onlyResetLeavesFaulted : Obligations.OnlyResetLeavesFaulted := by
  intro s t hf hstep hleft
  obtain ⟨-, rfl⟩ | ⟨x, rest, hp, heffect⟩ := step_cases hstep
  · exact Bool.noConfusion (hf.symm.trans hleft)
  by_cases hx : x = .reset
  · exact ⟨rest, hx ▸ hp⟩
  · have hkept := (heffect.unitKept_of_faulted hf hx).of_taken
    exact Bool.noConfusion (hf.symm.trans (hkept.fault.symm.trans hleft))

end Sys2Proof
end

section
/-! One step, transaction by transaction (R234): every step of a run that goes on answers a next state, and what that state
has of the transaction and its answer; then Reset (R230) and the state after reset (R231). -/

namespace Sys2Proof.Machine

theorem SameButUnwritten.refl (s : State) : SameButUnwritten s s := ⟨rfl, fun _ _ => rfl, rfl, RestKept.refl s⟩

/-- In a run that goes on every step answers a next state. -/
theorem step_answers {s : State} (hm : s.modelFault = none) : ∃ t, step s = .next t := by
  obtain ⟨t, -, hstep, -, -⟩ := step_alike (SameButUnwritten.refl s) hm
  exact ⟨t, hstep⟩

theorem Effect.pending {x : HostTx} {s t : State} (h : Effect x s t) : t.pending = s.pending := by
  cases h with
  | reset | hostWrote | illegal | wrote | range | commandEnded | readEnded | answered => rfl

/-- A transaction gets exactly one answer, or none when it reads an unwritten register, which ends the run (R22, log 4). -/
theorem Effect.answer {x : HostTx} {s t : State} (h : Effect x s t) :
    (t.modelFault = s.modelFault ∧ ∃ a, t.answers = s.answers ++ [a]) ∨
    ∃ r, s.isWritten r = false ∧ t.modelFault = some (.readUnwritten r) ∧ t.answers = s.answers := by
  cases h with
  | reset | hostWrote | illegal | wrote | range | answered => exact .inl ⟨rfl, _, rfl⟩
  | commandEnded _ _ _ hu =>
    obtain ⟨-, hw⟩ := firstUnwritten_eq_some hu
    exact .inr ⟨_, hw, rfl, rfl⟩
  | readEnded _ hw => exact .inr ⟨_, hw, rfl, rfl⟩

/-- A command whose sources are written completes, whether it succeeds or raises RANGE (R100, R204). -/
theorem issue_of_readable {s : State} {w : CmdWord} {i : Instr} (hm : s.modelFault = none) (hf : s.fault = false)
    (hd : decode w = .ok i) (h : Readable s (sourcesOf i)) : issue w s = onNext State.complete (exec i s) := by
  rw [issue_legal hf hd]
  obtain ⟨r, hu, -⟩ | ⟨-, v, hexec⟩ | ⟨-, hexec⟩ := exec_cases i s
  · cases hu.symm.trans (firstUnwritten_eq_none.mpr h)
  · rw [hexec, onNext, onNext, State.finish_of_none (s := s.writeB _ v) hm]
  · rw [hexec, onNext, onNext, State.finish_of_none (s := s.enterFault _ _) hm]

theorem step_of_reset {s : State} {rest : List HostTx} (hm : s.modelFault = none) (hp : s.pending = .reset :: rest) :
    step s = .next ((taken s).applyReset.reply .ok) := step_of_pending hm hp

end Sys2Proof.Machine

namespace Sys2Proof

open Sys2Proof.Machine

/-- Settles O7: a step waits, or has the effect of the next transaction, and each effect answers it or ends the run. -/
theorem everyStepAnswersOneTransaction : Obligations.EveryStepAnswersOneTransaction := by
  refine fun s => ⟨fun hm => ?_, fun f hm => step_ended hm⟩
  obtain ⟨t, hstep⟩ := step_answers hm
  refine ⟨t, hstep, ?_⟩
  obtain ⟨hp, rfl⟩ | ⟨x, rest, hp, heffect⟩ := step_cases hstep
  · exact ⟨by rw [hp, List.tail_nil], fun _ => rfl, fun hne => absurd hp hne⟩
  · refine ⟨heffect.pending, fun hnil => ?_, fun _ => ?_⟩
    · cases hp.symm.trans hnil
    · obtain ⟨hmodel, hanswer⟩ | hended := heffect.answer
      · exact .inl ⟨hmodel.trans hm, hanswer⟩
      · exact .inr hended

/-- Settles O39: Reset rewrites the unit's records, and the transaction is answered. -/
theorem resetTransactionClearsTheUnit : Obligations.ResetTransactionClearsTheUnit := by
  intro s rest hm hp
  exact ⟨_, step_of_reset hm hp, rfl, rfl, rfl, rfl, (taken s).applyReset_isWritten, by simp [hp], rfl⟩

/-- Settles O41: the step is the transaction's own operation, case by case along R234. -/
theorem transactionsHaveTheirEffectAndAnswer : Obligations.TransactionsHaveTheirEffectAndAnswer := by
  intro s x rest hm hp
  have hstep := step_of_pending hm hp
  refine ⟨?reset, ?issueRejected, ?issueLegal, ?issueIllegal, ?writeAccepted, ?writeRejected, ?readReg, ?readStatus,
    ?readFaultInsn⟩
  case reset =>
    rintro rfl
    obtain ⟨t, ht, hfault, hcause, hinsn, -, hwritten, hpending, hanswers⟩ := resetTransactionClearsTheUnit s rest hm hp
    exact ⟨t, ht, hfault, hcause, hinsn, hwritten, hpending, hanswers⟩
  case issueRejected =>
    rintro w rfl hf
    exact hstep.trans (issue_rejected (s := taken s) hf w)
  case issueLegal =>
    rintro w i rfl hf hd hread
    exact hstep.trans (issue_of_readable (s := taken s) hm hf hd hread)
  case issueIllegal =>
    rintro w rfl hf hillegal
    obtain ⟨-, illegal, -⟩ := outcomesAreTakenInPriorityOrder s _ rest w hm hp (.inl rfl)
    exact illegal hf hillegal
  case writeAccepted =>
    rintro r v rfl hf
    exact ⟨_, wrote_writeB (taken s) r v, hstep.trans (hostWriteReg_accepted (s := taken s) hf r v)⟩
  case writeRejected =>
    rintro r v rfl hf
    exact hstep.trans (hostWriteReg_rejected (s := taken s) hf r v)
  case readReg =>
    rintro r rfl hw
    exact hstep.trans (hostReadReg_of_written (s := taken s) hw)
  case readStatus | readFaultInsn =>
    rintro rfl
    exact hstep

/-- Settles O37: the record is empty at reset, and no read has ended the run. -/
theorem resetHasACoherentFaultRecord : Obligations.ResetHasACoherentFaultRecord := ⟨.inl ⟨rfl, rfl, rfl⟩, rfl, rfl⟩

/-- Settles O40: the records as `State.reset` gives them; with no transaction pending the unit waits (R48). -/
theorem stateAfterReset : Obligations.StateAfterReset :=
  ⟨rfl, rfl, status_eq_zero rfl rfl, rfl, rfl, fun _ => by simp [State.isWritten, State.reset], rfl, step_idle rfl rfl⟩

end Sys2Proof
end
